-- ==== Sys2Proof/Word.lean ====
section
/-! DEFINITION. The word types of the block: 32-bit words (00_scope.md R8) and bytes. -/

namespace Sys2Proof

/-- A 32-bit word: a register, an address or an instruction (00_scope.md R8, R11). -/
abbrev Word := BitVec 32

/-- One byte of the fetch adapter's memory (20_memory.md R66). -/
abbrev Byte := BitVec 8

/-- A visible register number, 0 to 15 (00_scope.md R8). -/
abbrev Reg := Fin 16

/-- `IsZero(v)` of 00_scope.md R11. -/
def isZero {w : Nat} (v : BitVec w) : Bool := v == 0#w

end Sys2Proof
end

