-- ==== Sys2Proof/Machine/Psr.lean ====
section
/-! DEFINITION. Processor modes and the program status register: the field view and the word view of
one PSR (10_state.md R22, R23, R30, R31, R36). -/

namespace Sys2Proof.Machine

/-- The seven modes (10_state.md R22). -/
inductive Mode where
  | usr | fiq | irq | svc | abt | und | sys
deriving DecidableEq, Repr

/-- The five exception modes: the modes with an SPSR (10_state.md R22, R36). -/
inductive ExcMode where
  | fiq | irq | svc | abt | und
deriving DecidableEq, Repr

/-- The banks r13 and r14 exist in; User and System share one (10_state.md R20, R24). -/
inductive Bank where
  | usr | fiq | irq | svc | abt | und
deriving DecidableEq, Repr

/-- The mode number `M` (10_state.md R22). -/
def Mode.bits : Mode → BitVec 5
  | .usr => 0b10000#5
  | .fiq => 0b10001#5
  | .irq => 0b10010#5
  | .svc => 0b10011#5
  | .abt => 0b10111#5
  | .und => 0b11011#5
  | .sys => 0b11111#5

/-- The mode a 5-bit value names; every value but the seven is invalid (10_state.md R22). -/
def Mode.ofBits (b : BitVec 5) : Option Mode :=
  if b = 0b10000#5 then some .usr
  else if b = 0b10001#5 then some .fiq
  else if b = 0b10010#5 then some .irq
  else if b = 0b10011#5 then some .svc
  else if b = 0b10111#5 then some .abt
  else if b = 0b11011#5 then some .und
  else if b = 0b11111#5 then some .sys
  else none

/-- The exception mode a mode is, if it is one: User and System have no SPSR (10_state.md R36). -/
def Mode.exc? : Mode → Option ExcMode
  | .usr => none
  | .fiq => some .fiq
  | .irq => some .irq
  | .svc => some .svc
  | .abt => some .abt
  | .und => some .und
  | .sys => none

/-- The r13/r14 bank of a mode (10_state.md R24). -/
def Mode.bank : Mode → Bank
  | .usr => .usr
  | .fiq => .fiq
  | .irq => .irq
  | .svc => .svc
  | .abt => .abt
  | .und => .und
  | .sys => .usr

/-- A mode is privileged when it is not User (10_state.md R23). -/
def Mode.privileged (m : Mode) : Bool := decide (m ≠ .usr)

/-- An exception mode as a mode. -/
def ExcMode.mode : ExcMode → Mode
  | .fiq => .fiq
  | .irq => .irq
  | .svc => .svc
  | .abt => .abt
  | .und => .und

/-- The r13/r14 bank of an exception mode (10_state.md R24). -/
def ExcMode.bank : ExcMode → Bank
  | .fiq => .fiq
  | .irq => .irq
  | .svc => .svc
  | .abt => .abt
  | .und => .und

/-- The field view of a PSR (10_state.md R30), used for the CPSR. Its mode is one of the seven, so
"`cpsr.M` always holds one of the seven valid modes" (10_state.md R32) by the type (log 11). -/
structure Psr where
  n : Bool
  z : Bool
  c : Bool
  v : Bool
  /-- Bits 27:8. -/
  reserved : BitVec 20
  /-- Bit 7: 1 masks IRQ. -/
  i : Bool
  /-- Bit 6: 1 masks FIQ. -/
  f : Bool
  /-- Bit 5: the Thumb state bit. -/
  t : Bool
  /-- Bits 4:0. -/
  mode : Mode
deriving DecidableEq, Repr

/-- The word view of a PSR: N31 Z30 C29 V28, reserved 27:8, I7 F6 T5, M4:0 (10_state.md R30). -/
def Psr.toWord (p : Psr) : Word :=
  BitVec.ofBool p.n ++ BitVec.ofBool p.z ++ BitVec.ofBool p.c ++ BitVec.ofBool p.v ++
    p.reserved ++
    BitVec.ofBool p.i ++ BitVec.ofBool p.f ++ BitVec.ofBool p.t ++ p.mode.bits

/-- The field view of a PSR word; none when its M field is no valid mode (10_state.md R30, R32). -/
def Psr.ofWord? (w : Word) : Option Psr :=
  match Mode.ofBits (w.extractLsb' 0 5) with
  | none => none
  | some m =>
    some { n := w.getLsbD 31, z := w.getLsbD 30, c := w.getLsbD 29, v := w.getLsbD 28
           reserved := w.extractLsb' 8 20
           i := w.getLsbD 7, f := w.getLsbD 6, t := w.getLsbD 5, mode := m }

end Sys2Proof.Machine
end

