-- ==== Sys2Proof/Machine/Registers.lean ====
section
/-! DEFINITION. The physical registers, the banking map `phys(mode, i)`, and the SPSRs
(10_state.md R20, R24, R36, R37). -/

namespace Sys2Proof.Machine

/-- The physical general registers other than the pc (10_state.md R20). -/
inductive PhysReg where
  /-- R0 to R7, shared by every mode. -/
  | low (i : Fin 8)
  /-- R8_usr to R12_usr. -/
  | mid (i : Fin 5)
  /-- R8_fiq to R12_fiq; used only when FIQ_BANKS_R8_R12 is true. -/
  | midFiq (i : Fin 5)
  /-- R13 of a bank. -/
  | sp (b : Bank)
  /-- R14 of a bank. -/
  | lr (b : Bank)
deriving DecidableEq, Repr

/-- A bank's place among the six. -/
def Bank.index : Bank → Fin 6
  | .usr => 0
  | .fiq => 1
  | .irq => 2
  | .svc => 3
  | .abt => 4
  | .und => 5

/-- Where the register file keeps a physical register: a numbering of the model's own. -/
def PhysReg.index : PhysReg → Fin 30
  | .low i => ⟨i.val, by omega⟩
  | .mid i => ⟨8 + i.val, by omega⟩
  | .midFiq i => ⟨13 + i.val, by omega⟩
  | .sp b => ⟨18 + b.index.val, by omega⟩
  | .lr b => ⟨24 + b.index.val, by omega⟩

/-- One 32-bit word for each physical register. -/
structure RegFile where
  words : Vector Word 30
deriving DecidableEq, Repr

/-- The word a physical register holds. -/
def RegFile.read (f : RegFile) (p : PhysReg) : Word := f.words[p.index]

/-- The register file with one physical register changed. -/
def RegFile.write (f : RegFile) (p : PhysReg) (v : Word) : RegFile :=
  ⟨f.words.set p.index v⟩

/-- Every physical register holding one value. -/
def RegFile.const (v : Word) : RegFile := ⟨Vector.replicate 30 v⟩

/-- The banking map of 10_state.md R24: the physical register visible register `i` names in a mode;
none for r15, the program counter. -/
def phys (fiqBanks : Bool) (m : Mode) (i : Reg) : Option PhysReg :=
  if h : i.val < 8 then some (.low ⟨i.val, h⟩)
  else if h : i.val < 13 then
    if m = .fiq ∧ fiqBanks = true then some (.midFiq ⟨i.val - 8, by omega⟩)
    else some (.mid ⟨i.val - 8, by omega⟩)
  else if i.val = 13 then some (.sp m.bank)
  else if i.val = 14 then some (.lr m.bank)
  else none

/-- The five SPSRs, each a full PSR word whose M field is not checked (10_state.md R36, R37). -/
structure SpsrFile where
  fiq : Word
  irq : Word
  svc : Word
  abt : Word
  und : Word
deriving DecidableEq, Repr

/-- The SPSR of an exception mode. -/
def SpsrFile.read (f : SpsrFile) : ExcMode → Word
  | .fiq => f.fiq
  | .irq => f.irq
  | .svc => f.svc
  | .abt => f.abt
  | .und => f.und

/-- The SPSRs with that of one exception mode changed. -/
def SpsrFile.write (f : SpsrFile) (m : ExcMode) (w : Word) : SpsrFile :=
  match m with
  | .fiq => { f with fiq := w }
  | .irq => { f with irq := w }
  | .svc => { f with svc := w }
  | .abt => { f with abt := w }
  | .und => { f with und := w }

end Sys2Proof.Machine
end

