-- ==== Sys2Proof/Config.lean ====
section
/-! DEFINITION. The named parameters of 00_scope.md R9, with their defaults. A configuration is fixed
for a machine: State carries it as data and no step changes it (log 1). -/

namespace Sys2Proof

/-- `TRAP_ENTRY` (60_exceptions.md R268): who performs exception entry. -/
inductive TrapEntry where
  | apply | report
deriving DecidableEq, Repr

/-- `FETCH_FAULT_POLICY` (60_exceptions.md R263). -/
inductive FetchFaultPolicy where
  | surface | prefetchAbort
deriving DecidableEq, Repr

/-- `FETCH_ENDIAN` (20_memory.md R66). -/
inductive Endian where
  | little | big
deriving DecidableEq, Repr

/-- The four flag values `RESET_FLAGS` (00_scope.md R9). -/
structure ResetFlags where
  n : Bool
  z : Bool
  c : Bool
  v : Bool
deriving DecidableEq, Repr

/-- The named parameters of 00_scope.md R9. -/
structure Config where
  /-- `FIQ_BANKS_R8_R12` (D4). -/
  fiqBanks : Bool
  /-- `TRAP_ENTRY` (D31). -/
  trapEntry : TrapEntry
  /-- `FETCH_FAULT_POLICY` (D32). -/
  fetchFaultPolicy : FetchFaultPolicy
  /-- `VECTOR_BASE` (D31), a word-aligned address. -/
  vectorBase : Word
  /-- `STRICT_UNPREDICTABLE` (D38). -/
  strict : Bool
  /-- `FETCH_ENDIAN` (D36). -/
  fetchEndian : Endian
  /-- `RESET_GPR` (D35). -/
  resetGpr : Machine.RegFile
  /-- `RESET_FLAGS` (D35). -/
  resetFlags : ResetFlags
  /-- `RESET_SPSR` (D35). -/
  resetSpsr : Machine.SpsrFile
deriving DecidableEq, Repr

/-- The defaults of 00_scope.md R9. The three reset parameters are "unconstrained" there.
DESIGN CHOICE (log 2, 3, 4), unsafe: the default configuration takes zeros for them. -/
def Config.default : Config :=
  { fiqBanks := true
    trapEntry := .apply
    fetchFaultPolicy := .surface
    vectorBase := 0#32
    strict := false
    fetchEndian := .little
    resetGpr := Machine.RegFile.const 0#32
    resetFlags := { n := false, z := false, c := false, v := false }
    resetSpsr := { fiq := 0#32, irq := 0#32, svc := 0#32, abt := 0#32, und := 0#32 } }

end Sys2Proof
end

