-- ==== Sys2Proof/Syntax.lean ====
section
/-! DEFINITION. The syntax of one instruction: one constructor of `Instr` for each row of
spec/opcode_table.json, over one argument structure for each format of 30_encoding.md R82 to R95.
The fields a rule ignores or calls SBZ are kept, so that no bit of a word is lost (log 17). -/

namespace Sys2Proof

/-- The condition field, bits 31:28 (30_encoding.md R81, R96). -/
inductive Cond where
  | eq | ne | cs | cc | mi | pl | vs | vc | hi | ls | ge | lt | gt | le | al
  /-- Encoding `1111`: reserved, `UndefinedCondition` (40_condition.md R121). -/
  | reserved
deriving DecidableEq, Repr

/-- The shift type, bits 6:5 (30_encoding.md R98). -/
inductive ShiftType where
  | lsl | lsr | asr | ror
deriving DecidableEq, Repr

/-- Operand 2 of a data-processing instruction in its three forms (30_encoding.md R82, R83, R84). -/
inductive Operand2 where
  /-- I = 1: `imm8` rotated right by `2 * rotate`. -/
  | imm (rotate : BitVec 4) (imm8 : Byte)
  /-- I = 0, bit 4 = 0: Rm shifted by the 5-bit amount. -/
  | shiftImm (rm : Reg) (shift : ShiftType) (amount : BitVec 5)
  /-- I = 0, bit 4 = 1, bit 7 = 0: Rm shifted by the low byte of Rs. -/
  | shiftReg (rm : Reg) (shift : ShiftType) (rs : Reg)
deriving DecidableEq, Repr

/-- A data-processing instruction that writes Rd (R82 to R84). -/
structure DpArgs where
  cond : Cond
  s : Bool
  rn : Reg
  rd : Reg
  op2 : Operand2
deriving DecidableEq, Repr

/-- TST, TEQ, CMP, CMN with S = 1 (R82 to R84). The Rd field is kept and not read. -/
structure TestArgs where
  cond : Cond
  rn : Reg
  rd : Reg
  op2 : Operand2
deriving DecidableEq, Repr

/-- The four test opcodes (R97). -/
inductive TestOp where
  | tst | teq | cmp | cmn
deriving DecidableEq, Repr

/-- A test opcode with S = 0 (R104): `imm` is bit 25, operand2 the bits 11:0. -/
structure BadTestArgs where
  cond : Cond
  imm : Bool
  op : TestOp
  rn : Reg
  rd : Reg
  operand2 : BitVec 12
deriving DecidableEq, Repr

/-- An extension-space word: I = 0, bit 7 = 1, bit 4 = 1 (R104, 42_data_processing.md R176).
`hi` is bits 11:8, `mid` bits 6:5, `lo` bits 3:0. -/
structure ExtArgs where
  cond : Cond
  opcode : BitVec 4
  s : Bool
  rn : Reg
  rd : Reg
  hi : BitVec 4
  mid : BitVec 2
  lo : BitVec 4
deriving DecidableEq, Repr

/-- MUL and MLA (R85). MUL does not read Rn (SBZ, R105). -/
structure MulArgs where
  cond : Cond
  s : Bool
  rd : Reg
  rn : Reg
  rs : Reg
  rm : Reg
deriving DecidableEq, Repr

/-- The long multiplies (R86). -/
structure MullArgs where
  cond : Cond
  s : Bool
  rdHi : Reg
  rdLo : Reg
  rs : Reg
  rm : Reg
deriving DecidableEq, Repr

/-- MRS (R87): `spsr` is the R bit. -/
structure MrsArgs where
  cond : Cond
  spsr : Bool
  rd : Reg
deriving DecidableEq, Repr

/-- MSR, register operand (R88): `spsr` is the R bit; `sbz` is bits 11:4. -/
structure MsrRegArgs where
  cond : Cond
  spsr : Bool
  f : Bool
  s : Bool
  x : Bool
  c : Bool
  sbz : Byte
  rm : Reg
deriving DecidableEq, Repr

/-- MSR, immediate operand (R89). -/
structure MsrImmArgs where
  cond : Cond
  spsr : Bool
  f : Bool
  s : Bool
  x : Bool
  c : Bool
  rotate : BitVec 4
  imm8 : Byte
deriving DecidableEq, Repr

/-- B and BL (R90). -/
structure BranchArgs where
  cond : Cond
  imm24 : BitVec 24
deriving DecidableEq, Repr

/-- BX (R91). -/
structure BxArgs where
  cond : Cond
  rn : Reg
deriving DecidableEq, Repr

/-- SWI (R92). -/
structure SwiArgs where
  cond : Cond
  comment : BitVec 24
deriving DecidableEq, Repr

/-- The architecturally undefined class (R93): `hi` is bits 24:5, `lo` bits 3:0. -/
structure UndefArgs where
  cond : Cond
  hi : BitVec 20
  lo : BitVec 4
deriving DecidableEq, Repr

/-- LDC and STC (R94). -/
structure CdtArgs where
  cond : Cond
  p : Bool
  u : Bool
  n : Bool
  w : Bool
  rn : Reg
  crd : BitVec 4
  cp : BitVec 4
  offset8 : Byte
deriving DecidableEq, Repr

/-- CDP (R94). -/
structure CdpArgs where
  cond : Cond
  op1 : BitVec 4
  crn : BitVec 4
  crd : BitVec 4
  cp : BitVec 4
  op2 : BitVec 3
  crm : BitVec 4
deriving DecidableEq, Repr

/-- MCR and MRC (R94). -/
structure CrtArgs where
  cond : Cond
  op1 : BitVec 3
  crn : BitVec 4
  rd : Reg
  cp : BitVec 4
  op2 : BitVec 3
  crm : BitVec 4
deriving DecidableEq, Repr

/-- SWP and SWPB (R95). -/
structure SwapArgs where
  cond : Cond
  rn : Reg
  rd : Reg
  rm : Reg
deriving DecidableEq, Repr

/-- A halfword or signed transfer with a register offset (R95). -/
structure HdtRegArgs where
  cond : Cond
  p : Bool
  u : Bool
  w : Bool
  rn : Reg
  rd : Reg
  rm : Reg
deriving DecidableEq, Repr

/-- A word of the register-offset halfword class that is none of its four instructions. -/
structure HdtRegOtherArgs where
  cond : Cond
  p : Bool
  u : Bool
  w : Bool
  l : Bool
  rn : Reg
  rd : Reg
  s : Bool
  h : Bool
  rm : Reg
deriving DecidableEq, Repr

/-- A halfword or signed transfer with an immediate offset (R95). -/
structure HdtImmArgs where
  cond : Cond
  p : Bool
  u : Bool
  w : Bool
  rn : Reg
  rd : Reg
  offHi : BitVec 4
  offLo : BitVec 4
deriving DecidableEq, Repr

/-- A word of the immediate-offset halfword class that is none of its four instructions. -/
structure HdtImmOtherArgs where
  cond : Cond
  p : Bool
  u : Bool
  w : Bool
  l : Bool
  rn : Reg
  rd : Reg
  offHi : BitVec 4
  s : Bool
  h : Bool
  offLo : BitVec 4
deriving DecidableEq, Repr

/-- A single data transfer (R95). -/
structure SdtArgs where
  cond : Cond
  i : Bool
  p : Bool
  u : Bool
  w : Bool
  rn : Reg
  rd : Reg
  offset : BitVec 12
deriving DecidableEq, Repr

/-- A block data transfer (R95). -/
structure BdtArgs where
  cond : Cond
  p : Bool
  u : Bool
  s : Bool
  w : Bool
  rn : Reg
  list : BitVec 16
deriving DecidableEq, Repr

/-- One instruction word: a constructor for each row of spec/opcode_table.json, in its order. -/
inductive Instr where
  | mul (a : MulArgs)
  | mla (a : MulArgs)
  | umull (a : MullArgs)
  | umlal (a : MullArgs)
  | smull (a : MullArgs)
  | smlal (a : MullArgs)
  | swp (a : SwapArgs)
  | swpb (a : SwapArgs)
  | bx (a : BxArgs)
  | strhReg (a : HdtRegArgs)
  | ldrhReg (a : HdtRegArgs)
  | ldrsbReg (a : HdtRegArgs)
  | ldrshReg (a : HdtRegArgs)
  | hdtRegOther (a : HdtRegOtherArgs)
  | strhImm (a : HdtImmArgs)
  | ldrhImm (a : HdtImmArgs)
  | ldrsbImm (a : HdtImmArgs)
  | ldrshImm (a : HdtImmArgs)
  | hdtImmOther (a : HdtImmOtherArgs)
  | undef (a : UndefArgs)
  | str (a : SdtArgs)
  | ldr (a : SdtArgs)
  | strb (a : SdtArgs)
  | ldrb (a : SdtArgs)
  | stm (a : BdtArgs)
  | ldm (a : BdtArgs)
  | b (a : BranchArgs)
  | bl (a : BranchArgs)
  | stc (a : CdtArgs)
  | ldc (a : CdtArgs)
  | cdp (a : CdpArgs)
  | mcr (a : CrtArgs)
  | mrc (a : CrtArgs)
  | swi (a : SwiArgs)
  | mrs (a : MrsArgs)
  | msrReg (a : MsrRegArgs)
  | msrImm (a : MsrImmArgs)
  | extension (a : ExtArgs)
  | badTest (a : BadTestArgs)
  | and (a : DpArgs)
  | eor (a : DpArgs)
  | sub (a : DpArgs)
  | rsb (a : DpArgs)
  | add (a : DpArgs)
  | adc (a : DpArgs)
  | sbc (a : DpArgs)
  | rsc (a : DpArgs)
  | tst (a : TestArgs)
  | teq (a : TestArgs)
  | cmp (a : TestArgs)
  | cmn (a : TestArgs)
  | orr (a : DpArgs)
  | mov (a : DpArgs)
  | bic (a : DpArgs)
  | mvn (a : DpArgs)
deriving DecidableEq, Repr

/-- The condition field every instruction carries (30_encoding.md R81). -/
def Instr.cond : Instr → Cond
  | .mul a => a.cond
  | .mla a => a.cond
  | .umull a => a.cond
  | .umlal a => a.cond
  | .smull a => a.cond
  | .smlal a => a.cond
  | .swp a => a.cond
  | .swpb a => a.cond
  | .bx a => a.cond
  | .strhReg a => a.cond
  | .ldrhReg a => a.cond
  | .ldrsbReg a => a.cond
  | .ldrshReg a => a.cond
  | .hdtRegOther a => a.cond
  | .strhImm a => a.cond
  | .ldrhImm a => a.cond
  | .ldrsbImm a => a.cond
  | .ldrshImm a => a.cond
  | .hdtImmOther a => a.cond
  | .undef a => a.cond
  | .str a => a.cond
  | .ldr a => a.cond
  | .strb a => a.cond
  | .ldrb a => a.cond
  | .stm a => a.cond
  | .ldm a => a.cond
  | .b a => a.cond
  | .bl a => a.cond
  | .stc a => a.cond
  | .ldc a => a.cond
  | .cdp a => a.cond
  | .mcr a => a.cond
  | .mrc a => a.cond
  | .swi a => a.cond
  | .mrs a => a.cond
  | .msrReg a => a.cond
  | .msrImm a => a.cond
  | .extension a => a.cond
  | .badTest a => a.cond
  | .and a => a.cond
  | .eor a => a.cond
  | .sub a => a.cond
  | .rsb a => a.cond
  | .add a => a.cond
  | .adc a => a.cond
  | .sbc a => a.cond
  | .rsc a => a.cond
  | .tst a => a.cond
  | .teq a => a.cond
  | .cmp a => a.cond
  | .cmn a => a.cond
  | .orr a => a.cond
  | .mov a => a.cond
  | .bic a => a.cond
  | .mvn a => a.cond

end Sys2Proof
end

