-- ==== Sys2Proof/WellFormed.lean ====
section
/-! DEFINITION. Which instruction terms are the reading of a word. A term is ill-formed where a row of
higher priority in 30_encoding.md R101, R110 takes its word (the overlaps of R103). -/

namespace Sys2Proof

/-- Single data transfer: the register-offset form with bit 4 set is the Undefined class (R93, R103). -/
def SdtArgs.wf (a : SdtArgs) : Bool := !(a.i && a.offset.getLsbD 4)

/-- The register-offset halfword class outside its four instructions: S:H = 00, or L = 0 with S = 1
(opcode_table.json). With S:H = 00 the multiplies (P = 0) and SWP come first (R103). -/
def HdtRegOtherArgs.wf (a : HdtRegOtherArgs) : Bool :=
  if a.s then !a.l
  else !a.h && a.p && (a.u || a.w || a.l)

/-- The immediate-offset halfword class outside its four instructions. With S:H = 00 the long
multiplies (P = 0, U = 1) and SWPB come first (R103). -/
def HdtImmOtherArgs.wf (a : HdtImmOtherArgs) : Bool :=
  if a.s then !a.l
  else !a.h && !(!a.p && a.u) && !(a.p && !a.u && !a.w && !a.l && a.offHi == 0#4)

/-- MSR register: BX and the halfword classes come first (R103). -/
def MsrRegArgs.wf (a : MsrRegArgs) : Bool :=
  !(!a.spsr && a.f && a.s && a.x && a.c && a.sbz == 0xF1#8) &&
  !(a.sbz.getLsbD 3 && a.sbz.getLsbD 0 && (a.spsr || a.sbz.extractLsb' 4 4 == 0#4))

/-- Extension space: the multiplies, the halfword classes and MSR come first (R104, R176). -/
def ExtArgs.wf (a : ExtArgs) : Bool :=
  !a.opcode.getLsbD 1 && a.hi != 0#4 &&
  !(a.mid == 0#2 && !a.opcode.getLsbD 3) &&
  !(a.opcode.getLsbD 3 && !a.opcode.getLsbD 2 && a.opcode.getLsbD 0 && !a.s && a.rd == 15)

/-- A test opcode with S = 0: the extension space, MRS and MSR (and BX within it) come first
(R104, R154). -/
def BadTestArgs.wf (a : BadTestArgs) : Bool :=
  !(!a.imm && a.operand2.getLsbD 7 && a.operand2.getLsbD 4) &&
  !(!a.imm && (a.op == .tst || a.op == .cmp) && a.rn == 15 && a.operand2 == 0#12) &&
  !((a.op == .teq || a.op == .cmn) && a.rd == 15)

/-- The instruction is the reading of some word. Every constructor not named by a check above has
all its terms well-formed. -/
def Instr.wf : Instr → Bool
  | .hdtRegOther a => a.wf
  | .hdtImmOther a => a.wf
  | .str a => a.wf
  | .ldr a => a.wf
  | .strb a => a.wf
  | .ldrb a => a.wf
  | .msrReg a => a.wf
  | .extension a => a.wf
  | .badTest a => a.wf
  | .mul _ => true
  | .mla _ => true
  | .umull _ => true
  | .umlal _ => true
  | .smull _ => true
  | .smlal _ => true
  | .swp _ => true
  | .swpb _ => true
  | .bx _ => true
  | .strhReg _ => true
  | .ldrhReg _ => true
  | .ldrsbReg _ => true
  | .ldrshReg _ => true
  | .strhImm _ => true
  | .ldrhImm _ => true
  | .ldrsbImm _ => true
  | .ldrshImm _ => true
  | .undef _ => true
  | .stm _ => true
  | .ldm _ => true
  | .b _ => true
  | .bl _ => true
  | .stc _ => true
  | .ldc _ => true
  | .cdp _ => true
  | .mcr _ => true
  | .mrc _ => true
  | .swi _ => true
  | .mrs _ => true
  | .msrImm _ => true
  | .and _ => true
  | .eor _ => true
  | .sub _ => true
  | .rsb _ => true
  | .add _ => true
  | .adc _ => true
  | .sbc _ => true
  | .rsc _ => true
  | .tst _ => true
  | .teq _ => true
  | .cmp _ => true
  | .cmn _ => true
  | .orr _ => true
  | .mov _ => true
  | .bic _ => true
  | .mvn _ => true

end Sys2Proof
end

