-- ==== Sys2Proof/Decode.lean ====
section
/-! DEFINITION. The decoder: the classifier's table and the opcode table in first-match order
(30_encoding.md R101, R110), the fields of each format (R82 to R95, R100), and the encoder. -/

namespace Sys2Proof

/-! Field codes. -/

/-- The condition a 4-bit field names (30_encoding.md R96). -/
def Cond.ofBits (b : BitVec 4) : Cond :=
  if b = 0x0#4 then .eq
  else if b = 0x1#4 then .ne
  else if b = 0x2#4 then .cs
  else if b = 0x3#4 then .cc
  else if b = 0x4#4 then .mi
  else if b = 0x5#4 then .pl
  else if b = 0x6#4 then .vs
  else if b = 0x7#4 then .vc
  else if b = 0x8#4 then .hi
  else if b = 0x9#4 then .ls
  else if b = 0xA#4 then .ge
  else if b = 0xB#4 then .lt
  else if b = 0xC#4 then .gt
  else if b = 0xD#4 then .le
  else if b = 0xE#4 then .al
  else .reserved

/-- The 4-bit code of a condition (30_encoding.md R96). -/
def Cond.bits : Cond → BitVec 4
  | .eq => 0x0#4
  | .ne => 0x1#4
  | .cs => 0x2#4
  | .cc => 0x3#4
  | .mi => 0x4#4
  | .pl => 0x5#4
  | .vs => 0x6#4
  | .vc => 0x7#4
  | .hi => 0x8#4
  | .ls => 0x9#4
  | .ge => 0xA#4
  | .lt => 0xB#4
  | .gt => 0xC#4
  | .le => 0xD#4
  | .al => 0xE#4
  | .reserved => 0xF#4

/-- The shift type a 2-bit field names (30_encoding.md R98). -/
def ShiftType.ofBits (b : BitVec 2) : ShiftType :=
  if b = 0b00#2 then .lsl
  else if b = 0b01#2 then .lsr
  else if b = 0b10#2 then .asr
  else .ror

/-- The 2-bit code of a shift type (30_encoding.md R98). -/
def ShiftType.bits : ShiftType → BitVec 2
  | .lsl => 0b00#2
  | .lsr => 0b01#2
  | .asr => 0b10#2
  | .ror => 0b11#2

/-- The test opcode bits 22:21 name: TST `1000`, TEQ `1001`, CMP `1010`, CMN `1011`
(30_encoding.md R97). -/
def TestOp.ofBits (b : BitVec 2) : TestOp :=
  if b = 0b00#2 then .tst
  else if b = 0b01#2 then .teq
  else if b = 0b10#2 then .cmp
  else .cmn

/-- Bits 22:21 of a test opcode (30_encoding.md R97). -/
def TestOp.bits : TestOp → BitVec 2
  | .tst => 0b00#2
  | .teq => 0b01#2
  | .cmp => 0b10#2
  | .cmn => 0b11#2

/-- A 4-bit register field as a register number. -/
def Reg.ofBits (b : BitVec 4) : Reg := ⟨b.toNat, b.isLt⟩

/-- A register number as a 4-bit field. -/
def Reg.bits (r : Reg) : BitVec 4 := BitVec.ofNat 4 r.val

/-! Fields of a word (30_encoding.md R81 to R95, R100). -/

/-- The condition field, bits 31:28 (R81). -/
def condOf (w : Word) : Cond := Cond.ofBits (w.extractLsb' 28 4)

/-- The register field whose lowest bit is `lo`. -/
def regAt (w : Word) (lo : Nat) : Reg := Reg.ofBits (w.extractLsb' lo 4)

/-- Operand 2 of a data-processing word: bit 25, then bit 4 (R82, R83, R84, R100). -/
def operand2Of (w : Word) : Operand2 :=
  if w.getLsbD 25 then .imm (w.extractLsb' 8 4) (w.extractLsb' 0 8)
  else if w.getLsbD 4 then
    .shiftReg (regAt w 0) (ShiftType.ofBits (w.extractLsb' 5 2)) (regAt w 8)
  else
    .shiftImm (regAt w 0) (ShiftType.ofBits (w.extractLsb' 5 2)) (w.extractLsb' 7 5)

/-- R82 to R84. -/
def dpArgs (w : Word) : DpArgs :=
  { cond := condOf w, s := w.getLsbD 20, rn := regAt w 16, rd := regAt w 12, op2 := operand2Of w }

/-- R82 to R84, with S = 1. -/
def testArgs (w : Word) : TestArgs :=
  { cond := condOf w, rn := regAt w 16, rd := regAt w 12, op2 := operand2Of w }

/-- R104, a test opcode with S = 0. -/
def badTestArgs (w : Word) : BadTestArgs :=
  { cond := condOf w, imm := w.getLsbD 25, op := TestOp.ofBits (w.extractLsb' 21 2)
    rn := regAt w 16, rd := regAt w 12, operand2 := w.extractLsb' 0 12 }

/-- R104, the extension space. -/
def extArgs (w : Word) : ExtArgs :=
  { cond := condOf w, opcode := w.extractLsb' 21 4, s := w.getLsbD 20
    rn := regAt w 16, rd := regAt w 12
    hi := w.extractLsb' 8 4, mid := w.extractLsb' 5 2, lo := w.extractLsb' 0 4 }

/-- R85. -/
def mulArgs (w : Word) : MulArgs :=
  { cond := condOf w, s := w.getLsbD 20
    rd := regAt w 16, rn := regAt w 12, rs := regAt w 8, rm := regAt w 0 }

/-- R86. -/
def mullArgs (w : Word) : MullArgs :=
  { cond := condOf w, s := w.getLsbD 20
    rdHi := regAt w 16, rdLo := regAt w 12, rs := regAt w 8, rm := regAt w 0 }

/-- R87. -/
def mrsArgs (w : Word) : MrsArgs :=
  { cond := condOf w, spsr := w.getLsbD 22, rd := regAt w 12 }

/-- R88. -/
def msrRegArgs (w : Word) : MsrRegArgs :=
  { cond := condOf w, spsr := w.getLsbD 22
    f := w.getLsbD 19, s := w.getLsbD 18, x := w.getLsbD 17, c := w.getLsbD 16
    sbz := w.extractLsb' 4 8, rm := regAt w 0 }

/-- R89. -/
def msrImmArgs (w : Word) : MsrImmArgs :=
  { cond := condOf w, spsr := w.getLsbD 22
    f := w.getLsbD 19, s := w.getLsbD 18, x := w.getLsbD 17, c := w.getLsbD 16
    rotate := w.extractLsb' 8 4, imm8 := w.extractLsb' 0 8 }

/-- R90. -/
def branchArgs (w : Word) : BranchArgs := { cond := condOf w, imm24 := w.extractLsb' 0 24 }

/-- R91. -/
def bxArgs (w : Word) : BxArgs := { cond := condOf w, rn := regAt w 0 }

/-- R92. -/
def swiArgs (w : Word) : SwiArgs := { cond := condOf w, comment := w.extractLsb' 0 24 }

/-- R93. -/
def undefArgs (w : Word) : UndefArgs :=
  { cond := condOf w, hi := w.extractLsb' 5 20, lo := w.extractLsb' 0 4 }

/-- R94, LDC and STC. -/
def cdtArgs (w : Word) : CdtArgs :=
  { cond := condOf w
    p := w.getLsbD 24, u := w.getLsbD 23, n := w.getLsbD 22, w := w.getLsbD 21
    rn := regAt w 16, crd := w.extractLsb' 12 4, cp := w.extractLsb' 8 4
    offset8 := w.extractLsb' 0 8 }

/-- R94, CDP. -/
def cdpArgs (w : Word) : CdpArgs :=
  { cond := condOf w, op1 := w.extractLsb' 20 4, crn := w.extractLsb' 16 4
    crd := w.extractLsb' 12 4, cp := w.extractLsb' 8 4, op2 := w.extractLsb' 5 3
    crm := w.extractLsb' 0 4 }

/-- R94, MCR and MRC. -/
def crtArgs (w : Word) : CrtArgs :=
  { cond := condOf w, op1 := w.extractLsb' 21 3, crn := w.extractLsb' 16 4
    rd := regAt w 12, cp := w.extractLsb' 8 4, op2 := w.extractLsb' 5 3
    crm := w.extractLsb' 0 4 }

/-- R95, SWP and SWPB. -/
def swapArgs (w : Word) : SwapArgs :=
  { cond := condOf w, rn := regAt w 16, rd := regAt w 12, rm := regAt w 0 }

/-- R95, register offset. -/
def hdtRegArgs (w : Word) : HdtRegArgs :=
  { cond := condOf w, p := w.getLsbD 24, u := w.getLsbD 23, w := w.getLsbD 21
    rn := regAt w 16, rd := regAt w 12, rm := regAt w 0 }

/-- R95, register offset, outside the four instructions. -/
def hdtRegOtherArgs (w : Word) : HdtRegOtherArgs :=
  { cond := condOf w, p := w.getLsbD 24, u := w.getLsbD 23, w := w.getLsbD 21
    l := w.getLsbD 20, rn := regAt w 16, rd := regAt w 12
    s := w.getLsbD 6, h := w.getLsbD 5, rm := regAt w 0 }

/-- R95, immediate offset. -/
def hdtImmArgs (w : Word) : HdtImmArgs :=
  { cond := condOf w, p := w.getLsbD 24, u := w.getLsbD 23, w := w.getLsbD 21
    rn := regAt w 16, rd := regAt w 12, offHi := w.extractLsb' 8 4, offLo := w.extractLsb' 0 4 }

/-- R95, immediate offset, outside the four instructions. -/
def hdtImmOtherArgs (w : Word) : HdtImmOtherArgs :=
  { cond := condOf w, p := w.getLsbD 24, u := w.getLsbD 23, w := w.getLsbD 21
    l := w.getLsbD 20, rn := regAt w 16, rd := regAt w 12, offHi := w.extractLsb' 8 4
    s := w.getLsbD 6, h := w.getLsbD 5, offLo := w.extractLsb' 0 4 }

/-- R95, single data transfer. -/
def sdtArgs (w : Word) : SdtArgs :=
  { cond := condOf w, i := w.getLsbD 25
    p := w.getLsbD 24, u := w.getLsbD 23, w := w.getLsbD 21
    rn := regAt w 16, rd := regAt w 12, offset := w.extractLsb' 0 12 }

/-- R95, block data transfer. -/
def bdtArgs (w : Word) : BdtArgs :=
  { cond := condOf w, p := w.getLsbD 24, u := w.getLsbD 23, s := w.getLsbD 22
    w := w.getLsbD 21, rn := regAt w 16, list := w.extractLsb' 0 16 }

/-! The classifier and the opcode table. -/

/-- The 17 classes of 30_encoding.md R101. -/
inductive InstrClass where
  | multiply | multiplyLong | singleDataSwap | branchExchange
  | halfwordTransferRegister | halfwordTransferImmediate | undefined
  | singleDataTransfer | blockDataTransfer | branch
  | coprocessorDataTransfer | coprocessorDataOperation | coprocessorRegisterTransfer
  | softwareInterrupt | mrs | msr | dataProcessing
deriving DecidableEq, Repr

/-- One entry of the classifier: `(word AND mask) == value` (30_encoding.md R101). -/
structure ClassEntry where
  mask : Word
  value : Word
  cls : InstrClass

/-- The classifier's table, in its order (30_encoding.md R101). -/
def classTable : List ClassEntry :=
  [ ⟨0x0FC000F0#32, 0x00000090#32, .multiply⟩
  , ⟨0x0F8000F0#32, 0x00800090#32, .multiplyLong⟩
  , ⟨0x0FB00FF0#32, 0x01000090#32, .singleDataSwap⟩
  , ⟨0x0FFFFFF0#32, 0x012FFF10#32, .branchExchange⟩
  , ⟨0x0E400F90#32, 0x00000090#32, .halfwordTransferRegister⟩
  , ⟨0x0E400090#32, 0x00400090#32, .halfwordTransferImmediate⟩
  , ⟨0x0E000010#32, 0x06000010#32, .undefined⟩
  , ⟨0x0C000000#32, 0x04000000#32, .singleDataTransfer⟩
  , ⟨0x0E000000#32, 0x08000000#32, .blockDataTransfer⟩
  , ⟨0x0E000000#32, 0x0A000000#32, .branch⟩
  , ⟨0x0E000000#32, 0x0C000000#32, .coprocessorDataTransfer⟩
  , ⟨0x0F000010#32, 0x0E000000#32, .coprocessorDataOperation⟩
  , ⟨0x0F000010#32, 0x0E000010#32, .coprocessorRegisterTransfer⟩
  , ⟨0x0F000000#32, 0x0F000000#32, .softwareInterrupt⟩
  , ⟨0x0FBF0FFF#32, 0x010F0000#32, .mrs⟩
  , ⟨0x0DB0F000#32, 0x0120F000#32, .msr⟩
  , ⟨0x0C000000#32, 0x00000000#32, .dataProcessing⟩ ]

/-- The class of a word: the first entry that matches (30_encoding.md R101). -/
def classify (w : Word) : Option InstrClass :=
  (classTable.find? fun e => w &&& e.mask == e.value).map ClassEntry.cls

/-- A row of the opcode table (30_encoding.md R110): what its words match, the class they belong to,
and the instruction they are. -/
structure Row where
  mask : Word
  pattern : Word
  cls : InstrClass
  build : Word → Instr

/-- Priorities 1 to 6 of opcode_table.json (30_encoding.md R110). -/
def rowsMultiply : List Row :=
  [ ⟨0x0FE000F0#32, 0x00000090#32, .multiply, fun w => .mul (mulArgs w)⟩
  , ⟨0x0FE000F0#32, 0x00200090#32, .multiply, fun w => .mla (mulArgs w)⟩
  , ⟨0x0FE000F0#32, 0x00800090#32, .multiplyLong, fun w => .umull (mullArgs w)⟩
  , ⟨0x0FE000F0#32, 0x00A00090#32, .multiplyLong, fun w => .umlal (mullArgs w)⟩
  , ⟨0x0FE000F0#32, 0x00C00090#32, .multiplyLong, fun w => .smull (mullArgs w)⟩
  , ⟨0x0FE000F0#32, 0x00E00090#32, .multiplyLong, fun w => .smlal (mullArgs w)⟩ ]

/-- Priorities 7 to 9 of opcode_table.json (30_encoding.md R110). -/
def rowsSwapBx : List Row :=
  [ ⟨0x0FF00FF0#32, 0x01000090#32, .singleDataSwap, fun w => .swp (swapArgs w)⟩
  , ⟨0x0FF00FF0#32, 0x01400090#32, .singleDataSwap, fun w => .swpb (swapArgs w)⟩
  , ⟨0x0FFFFFF0#32, 0x012FFF10#32, .branchExchange, fun w => .bx (bxArgs w)⟩ ]

/-- Priorities 10 to 19 of opcode_table.json (30_encoding.md R110). -/
def rowsHalfword : List Row :=
  [ ⟨0x0E500FF0#32, 0x000000B0#32, .halfwordTransferRegister, fun w => .strhReg (hdtRegArgs w)⟩
  , ⟨0x0E500FF0#32, 0x001000B0#32, .halfwordTransferRegister, fun w => .ldrhReg (hdtRegArgs w)⟩
  , ⟨0x0E500FF0#32, 0x001000D0#32, .halfwordTransferRegister, fun w => .ldrsbReg (hdtRegArgs w)⟩
  , ⟨0x0E500FF0#32, 0x001000F0#32, .halfwordTransferRegister, fun w => .ldrshReg (hdtRegArgs w)⟩
  , ⟨0x0E400F90#32, 0x00000090#32, .halfwordTransferRegister, fun w => .hdtRegOther (hdtRegOtherArgs w)⟩
  , ⟨0x0E5000F0#32, 0x004000B0#32, .halfwordTransferImmediate, fun w => .strhImm (hdtImmArgs w)⟩
  , ⟨0x0E5000F0#32, 0x005000B0#32, .halfwordTransferImmediate, fun w => .ldrhImm (hdtImmArgs w)⟩
  , ⟨0x0E5000F0#32, 0x005000D0#32, .halfwordTransferImmediate, fun w => .ldrsbImm (hdtImmArgs w)⟩
  , ⟨0x0E5000F0#32, 0x005000F0#32, .halfwordTransferImmediate, fun w => .ldrshImm (hdtImmArgs w)⟩
  , ⟨0x0E400090#32, 0x00400090#32, .halfwordTransferImmediate, fun w => .hdtImmOther (hdtImmOtherArgs w)⟩ ]

/-- Priorities 20 to 28 of opcode_table.json (30_encoding.md R110). -/
def rowsTransfer : List Row :=
  [ ⟨0x0E000010#32, 0x06000010#32, .undefined, fun w => .undef (undefArgs w)⟩
  , ⟨0x0C500000#32, 0x04000000#32, .singleDataTransfer, fun w => .str (sdtArgs w)⟩
  , ⟨0x0C500000#32, 0x04100000#32, .singleDataTransfer, fun w => .ldr (sdtArgs w)⟩
  , ⟨0x0C500000#32, 0x04400000#32, .singleDataTransfer, fun w => .strb (sdtArgs w)⟩
  , ⟨0x0C500000#32, 0x04500000#32, .singleDataTransfer, fun w => .ldrb (sdtArgs w)⟩
  , ⟨0x0E100000#32, 0x08000000#32, .blockDataTransfer, fun w => .stm (bdtArgs w)⟩
  , ⟨0x0E100000#32, 0x08100000#32, .blockDataTransfer, fun w => .ldm (bdtArgs w)⟩
  , ⟨0x0F000000#32, 0x0A000000#32, .branch, fun w => .b (branchArgs w)⟩
  , ⟨0x0F000000#32, 0x0B000000#32, .branch, fun w => .bl (branchArgs w)⟩ ]

/-- Priorities 29 to 34 of opcode_table.json (30_encoding.md R110). -/
def rowsCoprocessor : List Row :=
  [ ⟨0x0E100000#32, 0x0C000000#32, .coprocessorDataTransfer, fun w => .stc (cdtArgs w)⟩
  , ⟨0x0E100000#32, 0x0C100000#32, .coprocessorDataTransfer, fun w => .ldc (cdtArgs w)⟩
  , ⟨0x0F000010#32, 0x0E000000#32, .coprocessorDataOperation, fun w => .cdp (cdpArgs w)⟩
  , ⟨0x0F100010#32, 0x0E000010#32, .coprocessorRegisterTransfer, fun w => .mcr (crtArgs w)⟩
  , ⟨0x0F100010#32, 0x0E100010#32, .coprocessorRegisterTransfer, fun w => .mrc (crtArgs w)⟩
  , ⟨0x0F000000#32, 0x0F000000#32, .softwareInterrupt, fun w => .swi (swiArgs w)⟩ ]

/-- Priorities 35 to 37 of opcode_table.json (30_encoding.md R110). -/
def rowsPsr : List Row :=
  [ ⟨0x0FBF0FFF#32, 0x010F0000#32, .mrs, fun w => .mrs (mrsArgs w)⟩
  , ⟨0x0FB0F000#32, 0x0120F000#32, .msr, fun w => .msrReg (msrRegArgs w)⟩
  , ⟨0x0FB0F000#32, 0x0320F000#32, .msr, fun w => .msrImm (msrImmArgs w)⟩ ]

/-- Priorities 38 and 39 of opcode_table.json (30_encoding.md R110). -/
def rowsMalformed : List Row :=
  [ ⟨0x0E000090#32, 0x00000090#32, .dataProcessing, fun w => .extension (extArgs w)⟩
  , ⟨0x0D900000#32, 0x01000000#32, .dataProcessing, fun w => .badTest (badTestArgs w)⟩ ]

/-- Priorities 40 to 55 of opcode_table.json (30_encoding.md R110). -/
def rowsDataProcessing : List Row :=
  [ ⟨0x0DE00000#32, 0x00000000#32, .dataProcessing, fun w => .and (dpArgs w)⟩
  , ⟨0x0DE00000#32, 0x00200000#32, .dataProcessing, fun w => .eor (dpArgs w)⟩
  , ⟨0x0DE00000#32, 0x00400000#32, .dataProcessing, fun w => .sub (dpArgs w)⟩
  , ⟨0x0DE00000#32, 0x00600000#32, .dataProcessing, fun w => .rsb (dpArgs w)⟩
  , ⟨0x0DE00000#32, 0x00800000#32, .dataProcessing, fun w => .add (dpArgs w)⟩
  , ⟨0x0DE00000#32, 0x00A00000#32, .dataProcessing, fun w => .adc (dpArgs w)⟩
  , ⟨0x0DE00000#32, 0x00C00000#32, .dataProcessing, fun w => .sbc (dpArgs w)⟩
  , ⟨0x0DE00000#32, 0x00E00000#32, .dataProcessing, fun w => .rsc (dpArgs w)⟩
  , ⟨0x0DF00000#32, 0x01100000#32, .dataProcessing, fun w => .tst (testArgs w)⟩
  , ⟨0x0DF00000#32, 0x01300000#32, .dataProcessing, fun w => .teq (testArgs w)⟩
  , ⟨0x0DF00000#32, 0x01500000#32, .dataProcessing, fun w => .cmp (testArgs w)⟩
  , ⟨0x0DF00000#32, 0x01700000#32, .dataProcessing, fun w => .cmn (testArgs w)⟩
  , ⟨0x0DE00000#32, 0x01800000#32, .dataProcessing, fun w => .orr (dpArgs w)⟩
  , ⟨0x0DE00000#32, 0x01A00000#32, .dataProcessing, fun w => .mov (dpArgs w)⟩
  , ⟨0x0DE00000#32, 0x01C00000#32, .dataProcessing, fun w => .bic (dpArgs w)⟩
  , ⟨0x0DE00000#32, 0x01E00000#32, .dataProcessing, fun w => .mvn (dpArgs w)⟩ ]

/-- The opcode table in ascending priority (30_encoding.md R110). -/
def opcodeTable : List Row :=
  rowsMultiply ++ rowsSwapBx ++ rowsHalfword ++ rowsTransfer ++ rowsCoprocessor ++ rowsPsr ++
    rowsMalformed ++ rowsDataProcessing

/-- A word matches a row: `(word AND mask) == match` (30_encoding.md R110). -/
def Row.matchesWord (r : Row) (w : Word) : Bool := w &&& r.mask == r.pattern

/-- The first row that matches a word (30_encoding.md R110). -/
def rowOf (w : Word) : Option Row := opcodeTable.find? fun r => r.matchesWord w

/-- Why the decoder gives no instruction. -/
inductive DecodeReject where
  /-- Fewer than the four bytes of an instruction (30_encoding.md R80). -/
  | truncated
  /-- A word that matches no row: `ClassificationFailure` (60_exceptions.md R266), unreachable. -/
  | unclassified (w : Word)
deriving DecidableEq, Repr

/-- Decode one word: the first matching row, its fields by its format (30_encoding.md R100, R110). -/
def decodeWord (w : Word) : Except DecodeReject Instr :=
  match rowOf w with
  | some r => .ok (r.build w)
  | none => .error (.unclassified w)

/-- The word four bytes make: under `little` the byte at the lowest address gives bits 7:0
(20_memory.md R66). -/
def wordOfBytes (e : Endian) (b0 b1 b2 b3 : Byte) : Word :=
  match e with
  | .little => b3 ++ b2 ++ b1 ++ b0
  | .big => b0 ++ b1 ++ b2 ++ b3

/-- Byte `k` (0 to 3, by rising address) of a word (20_memory.md R66). -/
def byteOfWord (e : Endian) (w : Word) (k : Nat) : Byte :=
  match e with
  | .little => w.extractLsb' (8 * k) 8
  | .big => w.extractLsb' (24 - 8 * k) 8

/-- Decode any bytes: the instruction of the first four and the bytes after it, or a named rejection. -/
def decodeBytes (e : Endian) : List Byte → Except DecodeReject (Instr × List Byte)
  | b0 :: b1 :: b2 :: b3 :: rest =>
    match decodeWord (wordOfBytes e b0 b1 b2 b3) with
    | .ok i => .ok (i, rest)
    | .error r => .error r
  | _ => .error .truncated

/-- The 32-bit word whose low `nbits` bits are those of `w`, every higher bit 0. -/
def tableWord (nbits w : Nat) : Word := BitVec.ofNat 32 (w % 2 ^ nbits)

/-- The instruction the decoder reads from an instruction whose bits are `w`, numbered as
spec/opcode_table.json numbers them: the word's four bytes in the default byte order, decoded. -/
def decodeTableWord (nbits w : Nat) : Option Instr :=
  let word := tableWord nbits w
  match decodeBytes .little ((List.range 4).map (byteOfWord .little word)) with
  | .ok (i, _) => some i
  | .error _ => none

/-! The encoder, from the formats of 30_encoding.md R82 to R95 and the opcode numbers of R97. -/

/-- A one-bit field. -/
abbrev flag (b : Bool) : BitVec 1 := BitVec.ofBool b

/-- Bit 25 of a data-processing word. -/
def Operand2.iBit : Operand2 → Bool
  | .imm _ _ => true
  | .shiftImm _ _ _ => false
  | .shiftReg _ _ _ => false

/-- Bits 11:0 of a data-processing word (R82, R83, R84). -/
def Operand2.bits : Operand2 → BitVec 12
  | .imm rotate imm8 => rotate ++ imm8
  | .shiftImm rm shift amount => amount ++ shift.bits ++ 0b0#1 ++ Reg.bits rm
  | .shiftReg rm shift rs => Reg.bits rs ++ 0b0#1 ++ shift.bits ++ 0b1#1 ++ Reg.bits rm

/-- R82 to R84 with a data-processing opcode. -/
def encodeDp (opcode : BitVec 4) (a : DpArgs) : Word :=
  a.cond.bits ++ 0b00#2 ++ flag a.op2.iBit ++ opcode ++ flag a.s ++
    Reg.bits a.rn ++ Reg.bits a.rd ++ a.op2.bits

/-- R82 to R84 with a test opcode and S = 1. -/
def encodeTest (opcode : BitVec 4) (a : TestArgs) : Word :=
  a.cond.bits ++ 0b00#2 ++ flag a.op2.iBit ++ opcode ++ 0b1#1 ++
    Reg.bits a.rn ++ Reg.bits a.rd ++ a.op2.bits

/-- R85; `acc` is bit 21. -/
def encodeMul (acc : BitVec 1) (a : MulArgs) : Word :=
  a.cond.bits ++ 0b000000#6 ++ acc ++ flag a.s ++
    Reg.bits a.rd ++ Reg.bits a.rn ++ Reg.bits a.rs ++ 0b1001#4 ++ Reg.bits a.rm

/-- R86; `ua` is bits 22:21. -/
def encodeMull (ua : BitVec 2) (a : MullArgs) : Word :=
  a.cond.bits ++ 0b00001#5 ++ ua ++ flag a.s ++
    Reg.bits a.rdHi ++ Reg.bits a.rdLo ++ Reg.bits a.rs ++ 0b1001#4 ++ Reg.bits a.rm

/-- R95, SWP and SWPB; `b` is bit 22. -/
def encodeSwap (b : BitVec 1) (a : SwapArgs) : Word :=
  a.cond.bits ++ 0b00010#5 ++ b ++ 0b00#2 ++
    Reg.bits a.rn ++ Reg.bits a.rd ++ 0b00001001#8 ++ Reg.bits a.rm

/-- R95, halfword register offset; `l` is bit 20, `sh` bits 6:5. -/
def encodeHdtReg (l : BitVec 1) (sh : BitVec 2) (a : HdtRegArgs) : Word :=
  a.cond.bits ++ 0b000#3 ++ flag a.p ++ flag a.u ++ 0b0#1 ++ flag a.w ++ l ++
    Reg.bits a.rn ++ Reg.bits a.rd ++ 0b00001#5 ++ sh ++ 0b1#1 ++ Reg.bits a.rm

/-- R95, halfword immediate offset; `l` is bit 20, `sh` bits 6:5. -/
def encodeHdtImm (l : BitVec 1) (sh : BitVec 2) (a : HdtImmArgs) : Word :=
  a.cond.bits ++ 0b000#3 ++ flag a.p ++ flag a.u ++ 0b1#1 ++ flag a.w ++ l ++
    Reg.bits a.rn ++ Reg.bits a.rd ++ a.offHi ++ 0b1#1 ++ sh ++ 0b1#1 ++ a.offLo

/-- R95, single data transfer; `b` is bit 22, `l` bit 20. -/
def encodeSdt (b l : BitVec 1) (a : SdtArgs) : Word :=
  a.cond.bits ++ 0b01#2 ++ flag a.i ++ flag a.p ++ flag a.u ++ b ++ flag a.w ++ l ++
    Reg.bits a.rn ++ Reg.bits a.rd ++ a.offset

/-- R95, block data transfer; `l` is bit 20. -/
def encodeBdt (l : BitVec 1) (a : BdtArgs) : Word :=
  a.cond.bits ++ 0b100#3 ++ flag a.p ++ flag a.u ++ flag a.s ++ flag a.w ++ l ++
    Reg.bits a.rn ++ a.list

/-- R94, LDC and STC; `l` is bit 20. -/
def encodeCdt (l : BitVec 1) (a : CdtArgs) : Word :=
  a.cond.bits ++ 0b110#3 ++ flag a.p ++ flag a.u ++ flag a.n ++ flag a.w ++ l ++
    Reg.bits a.rn ++ a.crd ++ a.cp ++ a.offset8

/-- R94, MCR and MRC; `l` is bit 20. -/
def encodeCrt (l : BitVec 1) (a : CrtArgs) : Word :=
  a.cond.bits ++ 0b1110#4 ++ a.op1 ++ l ++ a.crn ++ Reg.bits a.rd ++ a.cp ++ a.op2 ++ 0b1#1 ++
    a.crm

/-- The word of an instruction. -/
def encode : Instr → Word
  | .mul a => encodeMul 0b0#1 a
  | .mla a => encodeMul 0b1#1 a
  | .umull a => encodeMull 0b00#2 a
  | .umlal a => encodeMull 0b01#2 a
  | .smull a => encodeMull 0b10#2 a
  | .smlal a => encodeMull 0b11#2 a
  | .swp a => encodeSwap 0b0#1 a
  | .swpb a => encodeSwap 0b1#1 a
  | .bx a => a.cond.bits ++ 0b000100101111111111110001#24 ++ Reg.bits a.rn
  | .strhReg a => encodeHdtReg 0b0#1 0b01#2 a
  | .ldrhReg a => encodeHdtReg 0b1#1 0b01#2 a
  | .ldrsbReg a => encodeHdtReg 0b1#1 0b10#2 a
  | .ldrshReg a => encodeHdtReg 0b1#1 0b11#2 a
  | .hdtRegOther a =>
    a.cond.bits ++ 0b000#3 ++ flag a.p ++ flag a.u ++ 0b0#1 ++ flag a.w ++ flag a.l ++
      Reg.bits a.rn ++ Reg.bits a.rd ++ 0b00001#5 ++ flag a.s ++ flag a.h ++ 0b1#1 ++
      Reg.bits a.rm
  | .strhImm a => encodeHdtImm 0b0#1 0b01#2 a
  | .ldrhImm a => encodeHdtImm 0b1#1 0b01#2 a
  | .ldrsbImm a => encodeHdtImm 0b1#1 0b10#2 a
  | .ldrshImm a => encodeHdtImm 0b1#1 0b11#2 a
  | .hdtImmOther a =>
    a.cond.bits ++ 0b000#3 ++ flag a.p ++ flag a.u ++ 0b1#1 ++ flag a.w ++ flag a.l ++
      Reg.bits a.rn ++ Reg.bits a.rd ++ a.offHi ++ 0b1#1 ++ flag a.s ++ flag a.h ++ 0b1#1 ++
      a.offLo
  | .undef a => a.cond.bits ++ 0b011#3 ++ a.hi ++ 0b1#1 ++ a.lo
  | .str a => encodeSdt 0b0#1 0b0#1 a
  | .ldr a => encodeSdt 0b0#1 0b1#1 a
  | .strb a => encodeSdt 0b1#1 0b0#1 a
  | .ldrb a => encodeSdt 0b1#1 0b1#1 a
  | .stm a => encodeBdt 0b0#1 a
  | .ldm a => encodeBdt 0b1#1 a
  | .b a => a.cond.bits ++ 0b1010#4 ++ a.imm24
  | .bl a => a.cond.bits ++ 0b1011#4 ++ a.imm24
  | .stc a => encodeCdt 0b0#1 a
  | .ldc a => encodeCdt 0b1#1 a
  | .cdp a =>
    a.cond.bits ++ 0b1110#4 ++ a.op1 ++ a.crn ++ a.crd ++ a.cp ++ a.op2 ++ 0b0#1 ++ a.crm
  | .mcr a => encodeCrt 0b0#1 a
  | .mrc a => encodeCrt 0b1#1 a
  | .swi a => a.cond.bits ++ 0b1111#4 ++ a.comment
  | .mrs a =>
    a.cond.bits ++ 0b00010#5 ++ flag a.spsr ++ 0b00#2 ++ 0b1111#4 ++ Reg.bits a.rd ++ 0x000#12
  | .msrReg a =>
    a.cond.bits ++ 0b00010#5 ++ flag a.spsr ++ 0b10#2 ++
      flag a.f ++ flag a.s ++ flag a.x ++ flag a.c ++ 0b1111#4 ++ a.sbz ++ Reg.bits a.rm
  | .msrImm a =>
    a.cond.bits ++ 0b00110#5 ++ flag a.spsr ++ 0b10#2 ++
      flag a.f ++ flag a.s ++ flag a.x ++ flag a.c ++ 0b1111#4 ++ a.rotate ++ a.imm8
  | .extension a =>
    a.cond.bits ++ 0b000#3 ++ a.opcode ++ flag a.s ++ Reg.bits a.rn ++ Reg.bits a.rd ++
      a.hi ++ 0b1#1 ++ a.mid ++ 0b1#1 ++ a.lo
  | .badTest a =>
    a.cond.bits ++ 0b00#2 ++ flag a.imm ++ 0b10#2 ++ a.op.bits ++ 0b0#1 ++
      Reg.bits a.rn ++ Reg.bits a.rd ++ a.operand2
  | .and a => encodeDp 0b0000#4 a
  | .eor a => encodeDp 0b0001#4 a
  | .sub a => encodeDp 0b0010#4 a
  | .rsb a => encodeDp 0b0011#4 a
  | .add a => encodeDp 0b0100#4 a
  | .adc a => encodeDp 0b0101#4 a
  | .sbc a => encodeDp 0b0110#4 a
  | .rsc a => encodeDp 0b0111#4 a
  | .tst a => encodeTest 0b1000#4 a
  | .teq a => encodeTest 0b1001#4 a
  | .cmp a => encodeTest 0b1010#4 a
  | .cmn a => encodeTest 0b1011#4 a
  | .orr a => encodeDp 0b1100#4 a
  | .mov a => encodeDp 0b1101#4 a
  | .bic a => encodeDp 0b1110#4 a
  | .mvn a => encodeDp 0b1111#4 a

end Sys2Proof
end

