-- ==== Sys2Proof/Machine/Memory.lean ====
section
/-! DEFINITION. The instruction memory behind `Fetch` (20_memory.md R60, R61, R66, R74): bytes by
address in one canonical form, with no value at an address that is not listed (log 6). -/

namespace Sys2Proof.Machine

/-- The fetch collaborator's memory: (address, byte) pairs, addresses strictly rising. An unlisted
address has no value: `Fetch` answers Fault there (log 6). -/
abbrev Memory := List Host.Cell

/-- The canonical form: addresses strictly rising, each below 2^32 (20_memory.md R61). -/
abbrev Memory.wf (m : Memory) : Prop :=
  m.Pairwise (fun x y => x.1 < y.1) ∧ ∀ c ∈ m, c.1 < 2 ^ 32

/-- The byte at an address, if the collaborator holds one there. -/
def Memory.readByte : Memory → Nat → Option Byte
  | [], _ => none
  | (k, b) :: m, a => if a = k then some b else Memory.readByte m a

/-- The memory with one byte changed, in canonical form. -/
def Memory.writeByte : Memory → Nat → Byte → Memory
  | [], a, v => [(a, v)]
  | (k, b) :: m, a, v =>
    if a < k then (a, v) :: (k, b) :: m
    else if a = k then (a, v) :: m
    else (k, b) :: Memory.writeByte m a v

/-- The address of byte `k` of the word at `addr`, modulo 2^32. -/
def byteAddr (addr : Word) (k : Nat) : Nat := (addr + BitVec.ofNat 32 k).toNat

/-- The word at an address, built from its four bytes in the order of `FETCH_ENDIAN`
(20_memory.md R66); none when one of the bytes has no value. -/
def Memory.readWord (m : Memory) (e : Endian) (addr : Word) : Option Word :=
  match m.readByte (byteAddr addr 0), m.readByte (byteAddr addr 1),
    m.readByte (byteAddr addr 2), m.readByte (byteAddr addr 3) with
  | some b0, some b1, some b2, some b3 => some (wordOfBytes e b0 b1 b2 b3)
  | _, _, _, _ => none

/-- The memory with one word changed, its bytes in the order of `FETCH_ENDIAN` (20_memory.md R66). -/
def Memory.writeWord (m : Memory) (e : Endian) (addr : Word) (w : Word) : Memory :=
  (((m.writeByte (byteAddr addr 0) (byteOfWord e w 0)).writeByte
      (byteAddr addr 1) (byteOfWord e w 1)).writeByte
      (byteAddr addr 2) (byteOfWord e w 2)).writeByte
      (byteAddr addr 3) (byteOfWord e w 3)

end Sys2Proof.Machine
end

