-- ==== Sys2Proof/Machine/State.lean ====
section
/-! DEFINITION. The state of the block (10_state.md), the outcomes of a step (00_scope.md R14,
60_exceptions.md R260 to R266), and the state after reset (10_state.md R40). -/

namespace Sys2Proof.Machine

/-- The reasons of `UndefinedInstruction` (60_exceptions.md R260). -/
inductive UndefReason where
  /-- Condition field `1111`, any class (40_condition.md R121). -/
  | undefinedCondition
  /-- r15 named where the instruction forbids it (R131, R190, R210). -/
  | pcOperandDisallowed
  /-- Overlapping multiply registers (R190). -/
  | multiplyRegisterConflict
  /-- MRS or MSR with R = 1 in User or System mode (R211, R213). -/
  | noSpsr
  /-- DP with S = 1, Rd = 15, in User or System mode (R152). -/
  | returnWithoutSpsr
  /-- MSR immediate with the control enable (R213). -/
  | msrImmediateControl
  /-- MSR register with the control enable in User mode (R213). -/
  | msrUserControl
  /-- TST, TEQ, CMP or CMN with S = 0 (R154). -/
  | malformedTestOp
  /-- A word of the Undefined class (R247). -/
  | undefinedClass
  /-- A word of a coprocessor class (R248). -/
  | noCoprocessor
deriving DecidableEq, Repr

/-- The reasons of `Unpredictable` (60_exceptions.md R265). -/
inductive UnpredReason where
  /-- ARM-state fetch with `pc[1:0] != 0` (R241). -/
  | misalignedPC
  /-- A CPSR write whose M is no valid mode (R32). -/
  | invalidMode
  /-- DP-class word with I = 0, bit 4 = 1, bit 7 = 1 (R176). -/
  | extensionSpace
  /-- An SBZ field nonzero, under STRICT_UNPREDICTABLE (R105). -/
  | shouldBeZero
  /-- r15 as Rd, Rn or Rm of a register-specified shift, under STRICT_UNPREDICTABLE (R177). -/
  | pcInRegisterShift
  /-- An MSR control write that changes T, under STRICT_UNPREDICTABLE (R214). -/
  | tBitWrite
deriving DecidableEq, Repr

/-- The memory classes of 46_dispatch.md R249. -/
inductive MemClass where
  | singleDataSwap
  | halfwordTransferRegister
  | halfwordTransferImmediate
  | singleDataTransfer
  | blockDataTransfer
deriving DecidableEq, Repr

/-- The exception kinds (60_exceptions.md R269). -/
inductive ExcKind where
  | reset | undef | swi | prefetchAbort | dataAbort | irq | fiq
deriving DecidableEq, Repr

/-- The two interrupt kinds (60_exceptions.md R272). -/
inductive IrqKind where
  | irq | fiq
deriving DecidableEq, Repr

/-- Why the machine stops with a fault. A fault commits nothing and is never resumed
(60_exceptions.md R265, R267). -/
inductive Fault where
  /-- `Unpredictable(reason)` (R265), raised by the step's alignment check and by the executors the
  reason names. Safe: the spec makes it a fault that claims nothing of the hardware's value. -/
  | unpredictable (r : UnpredReason)
  /-- `FetchFault(addr)` under FETCH_FAULT_POLICY = surface (R263), raised by the fetch. Safe: the
  spec surfaces it to the caller with nothing committed. -/
  | fetchFault (addr : Word)
  /-- `ClassificationFailure(word)` (R266), raised by the step when no row matches. Safe, and
  unreachable (30_encoding.md R102). -/
  | classificationFailure (w : Word)
deriving DecidableEq, Repr

/-- Why the machine refuses. A refusal commits nothing and is never resumed
(60_exceptions.md R264, R267). -/
inductive Refusal where
  /-- An instruction without a meaning in this model, raised by exec. Safe. No arm raises it now. -/
  | notModelled (mnemonic : String)
  /-- `Refused(MemoryClass(class))` (46_dispatch.md R249), raised by the memory-class executors.
  Safe: the spec itself gives these words no meaning. -/
  | memoryClass (c : MemClass)
  /-- `Refused(ThumbState)` (46_dispatch.md R240), raised at the start of a step with T = 1. Safe:
  the spec itself gives Thumb code no meaning. -/
  | thumbState
  /-- A host `Resume` of a core that is not stopped (60_exceptions.md R276), raised by the host
  request. Safe. -/
  | resumeNotStopped
  /-- A host request inside a step (60_exceptions.md R276, 46_dispatch.md R243), raised by the host
  request. Safe: "the host has no move inside a step". -/
  | notAtBoundary
deriving DecidableEq, Repr

/-- The outcomes of a step other than `Ok` (00_scope.md R14). -/
inductive NonOk where
  | undefinedInstruction (r : UndefReason)
  | softwareInterrupt (comment : BitVec 24)
  | fetchFault (addr : Word)
  | refused (r : Refusal)
  | unpredictable (r : UnpredReason)
  | interruptTaken (k : IrqKind)
  | classificationFailure (w : Word)
deriving DecidableEq, Repr

/-- The report record `(outcome, pc, ir)` (60_exceptions.md R261). `ir` is absent for the outcomes
raised before the fetch. -/
structure Report where
  outcome : NonOk
  pc : Word
  ir : Option Word
deriving DecidableEq, Repr

/-- The dispatcher's state (10_state.md R38, 46_dispatch.md R243). -/
inductive Phase where
  | fetch | decodeExecute
deriving DecidableEq, Repr

/-- `run` (10_state.md R38, 46_dispatch.md R245). -/
inductive RunStatus where
  | running
  | stopped
  | faulted (f : Fault)
  | refused (r : Refusal)
deriving DecidableEq, Repr

/-- Everything the spec gives the block, and what stands at its interfaces between two steps. -/
structure State where
  /-- The named parameters (00_scope.md R9); no step changes them (log 1). -/
  cfg : Config
  /-- The physical registers other than the pc (10_state.md R20). -/
  regs : RegFile
  /-- The address of the instruction the step executes (10_state.md R26). -/
  pc : Word
  /-- The CPSR, as fields (10_state.md R30). -/
  cpsr : Psr
  /-- The five SPSRs, as words (10_state.md R36, R37). -/
  spsrs : SpsrFile
  /-- The fetch collaborator's memory (20_memory.md R60). -/
  mem : Memory
  /-- The dispatcher's state (10_state.md R38). -/
  phase : Phase
  /-- The word fetched last; transient (10_state.md R38). -/
  ir : Word
  /-- `pc_next` (10_state.md R28, R38). -/
  pcNext : Word
  /-- `pc_written` (10_state.md R28, R38). -/
  pcWritten : Bool
  /-- The level of the IRQ request (10_state.md R38, 60_exceptions.md R272). -/
  irqReq : Bool
  /-- The level of the FIQ request (10_state.md R38, 60_exceptions.md R272). -/
  fiqReq : Bool
  /-- Whether the loop continues (10_state.md R38). -/
  run : RunStatus
  /-- The record the last step handed to its caller; none after `Ok`. The model's own mailbox for
  the record of 60_exceptions.md R261 (log 10). -/
  report : Option Report
deriving DecidableEq, Repr

/-- The reset sequence (70_reset_and_hazards.md R290, values of 10_state.md R40), for any
parameters, memory and interrupt levels. `ir` and `pcNext` have no reset value in the spec;
DESIGN CHOICE (log 5), unsafe: 0. -/
def State.afterReset (cfg : Config) (mem : Memory) (irqReq fiqReq : Bool) : State :=
  { cfg := cfg
    regs := cfg.resetGpr
    pc := cfg.vectorBase + 0x00#32
    cpsr :=
      { n := cfg.resetFlags.n, z := cfg.resetFlags.z, c := cfg.resetFlags.c, v := cfg.resetFlags.v
        reserved := 0#20, i := true, f := true, t := false, mode := .svc }
    spsrs := cfg.resetSpsr
    mem := mem
    phase := .fetch
    ir := 0#32
    pcNext := 0#32
    pcWritten := false
    irqReq := irqReq
    fiqReq := fiqReq
    run := .running
    report := none }

/-- The machine right after reset, with the default parameters, nothing listed in memory and both
interrupt inputs low (log 2, 3, 4, 5, 6). -/
def State.reset : State := State.afterReset Config.default [] false false

end Sys2Proof.Machine
end

