-- ==== Sys2Proof/Machine/Flags.lean ====
section
/-! DEFINITION. The condition evaluator (40_condition.md R120) and every flag computation
(42_data_processing.md R151, 43_multiply.md R197). -/

namespace Sys2Proof.Machine

/-- `ConditionPassed` (40_condition.md R120): none for the reserved condition `1111` (R121). -/
def conditionPassed (c : Cond) (p : Psr) : Option Bool :=
  match c with
  | .eq => some p.z
  | .ne => some (!p.z)
  | .cs => some p.c
  | .cc => some (!p.c)
  | .mi => some p.n
  | .pl => some (!p.n)
  | .vs => some p.v
  | .vc => some (!p.v)
  | .hi => some (p.c && !p.z)
  | .ls => some (!p.c || p.z)
  | .ge => some (p.n == p.v)
  | .lt => some (p.n != p.v)
  | .gt => some (!p.z && p.n == p.v)
  | .le => some (p.z || p.n != p.v)
  | .al => some true
  | .reserved => none

/-- What an ALU operation gives: the result, the carry it sets, and the overflow it sets; no overflow
for a logical operation, which leaves V unchanged (42_data_processing.md R150, R151). -/
structure AluOut where
  result : Word
  carry : Bool
  overflow : Option Bool
deriving DecidableEq, Repr

/-- `AddWithCarry`, exact in 33 bits (42_data_processing.md R151). -/
def addWithCarry (x y : Word) (cin : Bool) : AluOut :=
  let s33 : BitVec 33 := x.setWidth 33 + y.setWidth 33 + (BitVec.ofBool cin).setWidth 33
  let result : Word := s33.setWidth 32
  { result := result
    carry := s33.getLsbD 32
    overflow := some (x.msb == y.msb && result.msb != x.msb) }

/-- A logical operation: C is the shifter carry-out, V is unchanged (42_data_processing.md R151). -/
def logical (result : Word) (shifterCarry : Bool) : AluOut :=
  { result := result, carry := shifterCarry, overflow := none }

/-- The flag writes of a data-processing instruction with S = 1 (42_data_processing.md R150, R151). -/
def dpFlags (p : Psr) (o : AluOut) : Psr :=
  { p with
    n := o.result.msb
    z := isZero o.result
    c := o.carry
    v := o.overflow.getD p.v }

/-- The flag writes of a multiply with S = 1, of a 32- or 64-bit result: N and Z only
(43_multiply.md R197). -/
def mulFlags {w : Nat} (p : Psr) (result : BitVec w) : Psr :=
  { p with n := result.msb, z := isZero result }

end Sys2Proof.Machine
end

