-- ==== Sys2Proof/Machine/Ops.lean ====
section
/-! DEFINITION. The named operations the executors share: register access through the banking map,
the commit and the skip, exception entry and return, the routing of every non-`Ok` outcome, the fetch
and the interrupt test. -/

namespace Sys2Proof.Machine

/-- What an instruction, a step or a host request answers. -/
abbrev Out := Host.Outcome State Fault Refusal

/-! Register access. -/

/-- The read `x[i]`: through the banking map, and `pc + 8` for r15 (10_state.md R24, R27). -/
def State.reg (s : State) (i : Reg) : Word :=
  match phys s.cfg.fiqBanks s.cpsr.mode i with
  | some p => s.regs.read p
  | none => s.pc + 8#32

/-- The read of Rn or Rm in the register-specified-shift form: `pc + 12` for r15
(41_shifter.md R131). -/
def State.regInShift (s : State) (i : Reg) : Word :=
  if i = 15 then s.pc + 12#32 else s.reg i

/-- The write `x[i] <- v`: through the banking map; a write of r15 sets `pc_next` and marks the PC as
written, unaltered (10_state.md R24, R28). -/
def State.setReg (s : State) (i : Reg) (v : Word) : State :=
  match phys s.cfg.fiqBanks s.cpsr.mode i with
  | some p => { s with regs := s.regs.write p v }
  | none => { s with pcNext := v, pcWritten := true }

/-- `spsr()`: the SPSR of the current mode, none in User and System (10_state.md R36). -/
def State.spsr? (s : State) : Option Word := s.cpsr.mode.exc?.map s.spsrs.read

/-! The end of a step. -/

/-- The next instruction's address (10_state.md R29). -/
def State.nextPc (s : State) : Word := if s.pcWritten then s.pcNext else s.pc + 4#32

/-- The commit of a step: the pc moves, `pc_written` and `phase` return to their values between steps,
the outcome is `Ok` (46_dispatch.md R244, 10_state.md R29). -/
def State.commit (s : State) : State :=
  { s with pc := s.nextPc, pcWritten := false, phase := .fetch, report := none }

/-- A condition-failed instruction: only `pc <- pc + 4` (40_condition.md R122). -/
def State.skip (s : State) : State :=
  { s with pc := s.pc + 4#32, pcWritten := false, phase := .fetch, report := none }

/-! Exception entry and return. -/

/-- The mode an exception kind enters (60_exceptions.md R269). -/
def ExcKind.target : ExcKind → ExcMode
  | .reset => .svc
  | .undef => .und
  | .swi => .svc
  | .prefetchAbort => .abt
  | .dataAbort => .abt
  | .irq => .irq
  | .fiq => .fiq

/-- The vector offset of an exception kind (60_exceptions.md R269). -/
def ExcKind.offset : ExcKind → Word
  | .reset => 0x00#32
  | .undef => 0x04#32
  | .swi => 0x08#32
  | .prefetchAbort => 0x0C#32
  | .dataAbort => 0x10#32
  | .irq => 0x18#32
  | .fiq => 0x1C#32

/-- The value written to r14 of the new mode; for Reset `RESET_GPR` (60_exceptions.md R269, R270,
log 16). -/
def ExcKind.link (k : ExcKind) (cfg : Config) (pc : Word) : Word :=
  match k with
  | .reset => cfg.resetGpr.read (.lr .svc)
  | .undef => pc + 4#32
  | .swi => pc + 4#32
  | .prefetchAbort => pc + 4#32
  | .dataAbort => pc + 8#32
  | .irq => pc + 4#32
  | .fiq => pc + 4#32

/-- The value written to the SPSR of the new mode: the old CPSR, whole; for Reset `RESET_SPSR`
(60_exceptions.md R270, log 16). -/
def ExcKind.saved (k : ExcKind) (cfg : Config) (old : Psr) : Word :=
  match k with
  | .reset => cfg.resetSpsr.svc
  | .undef => old.toWord
  | .swi => old.toWord
  | .prefetchAbort => old.toWord
  | .dataAbort => old.toWord
  | .irq => old.toWord
  | .fiq => old.toWord

/-- Whether the entry sets F: Reset and FIQ (60_exceptions.md R269). -/
def ExcKind.setsF : ExcKind → Bool
  | .reset => true
  | .undef => false
  | .swi => false
  | .prefetchAbort => false
  | .dataAbort => false
  | .irq => false
  | .fiq => true

/-- `EnterException(kind)`, with `pc` the address 60_exceptions.md R269 bases the return on: the CPSR
is saved whole, the mode, T, I and F change, r14 of the new mode gets the link value, the pc goes to
the vector (60_exceptions.md R270). -/
def enterException (k : ExcKind) (pc : Word) (s : State) : State :=
  { s with
    spsrs := s.spsrs.write k.target (k.saved s.cfg s.cpsr)
    cpsr :=
      { s.cpsr with
        mode := k.target.mode, t := false, i := true, f := s.cpsr.f || k.setsF }
    regs := s.regs.write (.lr k.target.bank) (k.link s.cfg pc)
    pc := s.cfg.vectorBase + k.offset
    pcWritten := false
    phase := .fetch }

/-- `ReturnFromException(result)`: the pc takes the result, the CPSR the SPSR of the mode, whole
(42_data_processing.md R152, 60_exceptions.md R274). -/
def returnFromException (result : Word) (s : State) : Except NonOk State :=
  match s.spsr? with
  | none => .error (.undefinedInstruction .returnWithoutSpsr)
  | some w =>
    match Psr.ofWord? w with
    | none => .error (.unpredictable .invalidMode)
    | some p => .ok { s.setReg 15 result with cpsr := p }

/-! The routing of outcomes. -/

/-- The record handed to the caller: the fetched word is absent for the outcomes raised before the
fetch (60_exceptions.md R261). -/
def State.record (s : State) (o : NonOk) : Report :=
  { outcome := o
    pc := s.pc
    ir :=
      match o with
      | .undefinedInstruction _ => some s.ir
      | .softwareInterrupt _ => some s.ir
      | .fetchFault _ => none
      | .refused .thumbState => none
      | .refused _ => some s.ir
      | .unpredictable .misalignedPC => none
      | .unpredictable _ => some s.ir
      | .interruptTaken _ => none
      | .classificationFailure _ => some s.ir }

/-- A taken exception with its record. -/
def trapEntered (k : ExcKind) (o : NonOk) (s : State) : State :=
  { enterException k s.pc s with report := some (s.record o) }

/-- A trap under TRAP_ENTRY = report: the state is unchanged, the run stops, the record goes to the
caller (60_exceptions.md R268). -/
def trapReported (o : NonOk) (s : State) : State :=
  { s with pcWritten := false, phase := .fetch, run := .stopped, report := some (s.record o) }

/-- The routing of a trap by TRAP_ENTRY (60_exceptions.md R268). -/
def routeTrap (k : ExcKind) (o : NonOk) (s : State) : State :=
  match s.cfg.trapEntry with
  | .apply => trapEntered k o s
  | .report => trapReported o s

/-- The interrupt kind as an exception kind. -/
def IrqKind.exc : IrqKind → ExcKind
  | .irq => .irq
  | .fiq => .fiq

/-- What follows an outcome that is not `Ok` (60_exceptions.md R267, R268): nothing of the instruction
is committed; a trap is routed, a fault or a refusal ends the run. `s` is the state from before the
instruction. -/
def settle (o : NonOk) (s : State) : Out :=
  match o with
  | .undefinedInstruction r => .next (routeTrap .undef (.undefinedInstruction r) s)
  | .softwareInterrupt c => .next (routeTrap .swi (.softwareInterrupt c) s)
  | .fetchFault a =>
    match s.cfg.fetchFaultPolicy with
    | .surface => .fault (.fetchFault a)
    | .prefetchAbort => .next (routeTrap .prefetchAbort (.fetchFault a) s)
  | .refused r => .refused r
  | .unpredictable r => .fault (.unpredictable r)
  | .interruptTaken k => .next (trapEntered k.exc (.interruptTaken k) s)
  | .classificationFailure w => .fault (.classificationFailure w)

/-- One instruction of any class: the condition, then the executor, then the commit
(46_dispatch.md R242, R244, R250). The executor computes its writes from the state at the start, or
raises an outcome with nothing committed. -/
def execute (c : Cond) (body : State → Except NonOk State) (s : State) : Out :=
  match conditionPassed c s.cpsr with
  | none => settle (.undefinedInstruction .undefinedCondition) s
  | some false => .next s.skip
  | some true =>
    match body { s with pcWritten := false } with
    | .error o => settle o s
    | .ok t => .next t.commit

/-! The start of a step. -/

/-- `BoundaryInterrupt` (60_exceptions.md R272, R273): FIQ before IRQ, each when asserted and
unmasked; under TRAP_ENTRY = report the block ignores both. -/
def boundaryInterrupt (s : State) : Option IrqKind :=
  match s.cfg.trapEntry with
  | .report => none
  | .apply =>
    if s.fiqReq && !s.cpsr.f then some .fiq
    else if s.irqReq && !s.cpsr.i then some .irq
    else none

/-- `pc[1:0] = 0b00` (20_memory.md R62). -/
def pcAligned (pc : Word) : Bool := pc.extractLsb' 0 2 == 0#2

/-- `Fetch(pc)`: the word the collaborator holds there now, or a fault (20_memory.md R60, R74). -/
def State.fetch (s : State) : Option Word := s.mem.readWord s.cfg.fetchEndian s.pc

/-- The state in which the fetched word is decoded and executed: `ir <- w`, `phase <- DecodeExecute`
(46_dispatch.md R241). -/
def State.fetched (s : State) (w : Word) : State := { s with ir := w, phase := .decodeExecute }

/-- A change of memory by the fetch collaborator between two steps (20_memory.md R74): one word, in
the byte order of `FETCH_ENDIAN`. -/
def State.placeWord (s : State) (addr w : Word) : State :=
  { s with mem := s.mem.writeWord s.cfg.fetchEndian addr w }

end Sys2Proof.Machine
end

