-- ==== Sys2Proof/Machine/Branch.lean ====
section
/-! DEFINITION. Branch, branch with link, branch and exchange (45_branch.md R230 to R234). -/

namespace Sys2Proof.Machine

/-- The byte offset: the sign-extended 24-bit field, shifted left by 2 (45_branch.md R230). -/
def branchOffset (imm24 : BitVec 24) : Word := imm24.signExtend 32 <<< 2

/-- `ExecuteB` (45_branch.md R230). -/
def branchBody (a : BranchArgs) (s : State) : Except NonOk State :=
  .ok (s.setReg 15 (s.pc + 8#32 + branchOffset a.imm24))

/-- `ExecuteBL`: the link value is `cur - 4` with `cur = pc + 8`, taken before the branch
(45_branch.md R231). -/
def branchLinkBody (a : BranchArgs) (s : State) : Except NonOk State :=
  let cur := s.pc + 8#32
  .ok ((s.setReg 14 (cur - 4#32)).setReg 15 (cur + branchOffset a.imm24))

/-- `ExecuteBX` (45_branch.md R233). -/
def branchExchangeBody (a : BxArgs) (s : State) : Except NonOk State :=
  let target := s.reg a.rn
  .ok { s.setReg 15 (target &&& 0xFFFFFFFE#32) with cpsr := { s.cpsr with t := target.getLsbD 0 } }

/-- B (45_branch.md R230). -/
def execB (a : BranchArgs) (s : State) : Out := execute a.cond (branchBody a) s

/-- BL (R231). -/
def execBl (a : BranchArgs) (s : State) : Out := execute a.cond (branchLinkBody a) s

/-- BX (R233). -/
def execBx (a : BxArgs) (s : State) : Out := execute a.cond (branchExchangeBody a) s

end Sys2Proof.Machine
end

