-- ==== Sys2Proof/Machine/Operands.lean ====
section
/-! DEFINITION. The barrel shifter: operand 2 in its three forms and the shifter carry-out
(41_shifter.md R130 to R138). -/

namespace Sys2Proof.Machine

/-- What the shifter returns: the operand and the carry-out. -/
structure Shifted where
  value : Word
  carry : Bool
deriving DecidableEq, Repr

/-- `ROR(v, n)`: rotate right by `n mod 32` (00_scope.md R11). -/
def ror (v : Word) (n : Nat) : Word := v.rotateRight n

/-- The immediate operand (41_shifter.md R130). -/
def immOperand (rotate : BitVec 4) (imm8 : Byte) (c : Bool) : Shifted :=
  let value := ror (imm8.setWidth 32) (2 * rotate.toNat)
  { value := value, carry := if rotate = 0#4 then c else value.getLsbD 31 }

/-- `LSL_C` (41_shifter.md R132). -/
def lslC (v : Word) (n : Nat) (c : Bool) : Shifted :=
  if n = 0 then ⟨v, c⟩
  else if n ≤ 31 then ⟨v <<< n, v.getLsbD (32 - n)⟩
  else if n = 32 then ⟨0#32, v.getLsbD 0⟩
  else ⟨0#32, false⟩

/-- `LSR_C` (41_shifter.md R133). -/
def lsrC (v : Word) (n : Nat) (c : Bool) : Shifted :=
  if n = 0 then ⟨v, c⟩
  else if n ≤ 31 then ⟨v >>> n, v.getLsbD (n - 1)⟩
  else if n = 32 then ⟨0#32, v.getLsbD 31⟩
  else ⟨0#32, false⟩

/-- `ASR_C` (41_shifter.md R134). -/
def asrC (v : Word) (n : Nat) (c : Bool) : Shifted :=
  if n = 0 then ⟨v, c⟩
  else if n ≤ 31 then ⟨v.sshiftRight n, v.getLsbD (n - 1)⟩
  else ⟨if v.getLsbD 31 then 0xFFFFFFFF#32 else 0#32, v.getLsbD 31⟩

/-- `ROR_C` (41_shifter.md R135, R136). -/
def rorC (v : Word) (n : Nat) (c : Bool) : Shifted :=
  if n = 0 then ⟨v, c⟩
  else if n % 32 = 0 then ⟨v, v.getLsbD 31⟩
  else ⟨ror v (n % 32), v.getLsbD (n % 32 - 1)⟩

/-- `RRX_C` (41_shifter.md R135). -/
def rrxC (v : Word) (c : Bool) : Shifted :=
  ⟨BitVec.ofBool c ++ v.extractLsb' 1 31, v.getLsbD 0⟩

/-- A shift by an immediate amount: 0 means LSR #32, ASR #32 and RRX (41_shifter.md R132 to R135,
R137). -/
def shiftByImm (t : ShiftType) (v : Word) (amount : BitVec 5) (c : Bool) : Shifted :=
  match t with
  | .lsl => lslC v amount.toNat c
  | .lsr => lsrC v (if amount = 0#5 then 32 else amount.toNat) c
  | .asr => asrC v (if amount = 0#5 then 32 else amount.toNat) c
  | .ror => if amount = 0#5 then rrxC v c else rorC v amount.toNat c

/-- A shift by a register amount, the low byte of Rs (41_shifter.md R131, R137). -/
def shiftByReg (t : ShiftType) (v : Word) (amount : Byte) (c : Bool) : Shifted :=
  match t with
  | .lsl => lslC v amount.toNat c
  | .lsr => lsrC v amount.toNat c
  | .asr => asrC v amount.toNat c
  | .ror => rorC v amount.toNat c

/-- `ShifterOperand` (41_shifter.md R137): it writes nothing; Rs = 15 is disallowed (R131). -/
def shifterOperand (o : Operand2) (s : State) : Except NonOk Shifted :=
  match o with
  | .imm rotate imm8 => .ok (immOperand rotate imm8 s.cpsr.c)
  | .shiftImm rm t amount => .ok (shiftByImm t (s.reg rm) amount s.cpsr.c)
  | .shiftReg rm t rs =>
    if rs = 15 then .error (.undefinedInstruction .pcOperandDisallowed)
    else .ok (shiftByReg t (s.regInShift rm) ((s.reg rs).extractLsb' 0 8) s.cpsr.c)

/-- Operand 1, `x[Rn]`: r15 reads `pc + 12` in the register-shift form and `pc + 8` otherwise
(42_data_processing.md R150, R178). -/
def operand1 (rn : Reg) (o : Operand2) (s : State) : Word :=
  match o with
  | .imm _ _ => s.reg rn
  | .shiftImm _ _ _ => s.reg rn
  | .shiftReg _ _ _ => s.regInShift rn

end Sys2Proof.Machine
end

