-- ==== Sys2Proof/Machine/DataProcessing.lean ====
section
/-! DEFINITION. The data-processing instructions (42_data_processing.md R150 to R178) and the two
malformed subspaces of their class (R154, R176). -/

namespace Sys2Proof.Machine

/-- An ALU operation of 42_data_processing.md R160 to R175: from operand 1, operand 2, `cpsr.C` and
the shifter carry-out. -/
abbrev AluOp := Word → Word → Bool → Bool → AluOut

/-- `StrictChecksDP` (42_data_processing.md R177): `sbz` says an SBZ field is nonzero; the second check
is r15 as Rd, Rn or Rm of a register-specified shift. -/
def strictChecksDp (strict sbz : Bool) (rn rd : Reg) (o : Operand2) : Option NonOk :=
  if strict = false then none
  else if sbz then some (.unpredictable .shouldBeZero)
  else
    match o with
    | .imm _ _ => none
    | .shiftImm _ _ _ => none
    | .shiftReg rm _ _ =>
      if rd = 15 ∨ rn = 15 ∨ rm = 15 then some (.unpredictable .pcInRegisterShift) else none

/-- The executor of an operation that writes Rd (42_data_processing.md R150, R152, R153). -/
def dpBody (op : AluOp) (sbz : Bool) (a : DpArgs) (s : State) : Except NonOk State :=
  match strictChecksDp s.cfg.strict sbz a.rn a.rd a.op2 with
  | some o => .error o
  | none =>
    match shifterOperand a.op2 s with
    | .error o => .error o
    | .ok sh =>
      let out := op (operand1 a.rn a.op2 s) sh.value s.cpsr.c sh.carry
      if a.s then
        if a.rd = 15 then returnFromException out.result s
        else .ok { s.setReg a.rd out.result with cpsr := dpFlags s.cpsr out }
      else .ok (s.setReg a.rd out.result)

/-- The executor of a test operation with S = 1: only the flags are written
(42_data_processing.md R150, R154). -/
def testBody (op : AluOp) (a : TestArgs) (s : State) : Except NonOk State :=
  match strictChecksDp s.cfg.strict (a.rd != 0) a.rn a.rd a.op2 with
  | some o => .error o
  | none =>
    match shifterOperand a.op2 s with
    | .error o => .error o
    | .ok sh =>
      .ok { s with cpsr := dpFlags s.cpsr (op (operand1 a.rn a.op2 s) sh.value s.cpsr.c sh.carry) }

/-- AND: Rn AND op2 (R160). -/
def opAnd : AluOp := fun a b _ sh => logical (a &&& b) sh

/-- EOR: Rn EOR op2 (R161). -/
def opEor : AluOp := fun a b _ sh => logical (a ^^^ b) sh

/-- SUB: Rn - op2 (R162). -/
def opSub : AluOp := fun a b _ _ => addWithCarry a (~~~b) true

/-- RSB: op2 - Rn (R163). -/
def opRsb : AluOp := fun a b _ _ => addWithCarry b (~~~a) true

/-- ADD: Rn + op2 (R164). -/
def opAdd : AluOp := fun a b _ _ => addWithCarry a b false

/-- ADC: Rn + op2 + C (R165). -/
def opAdc : AluOp := fun a b c _ => addWithCarry a b c

/-- SBC: Rn - op2 - NOT C (R166). -/
def opSbc : AluOp := fun a b c _ => addWithCarry a (~~~b) c

/-- RSC: op2 - Rn - NOT C (R167). -/
def opRsc : AluOp := fun a b c _ => addWithCarry b (~~~a) c

/-- ORR: Rn OR op2 (R172). -/
def opOrr : AluOp := fun a b _ sh => logical (a ||| b) sh

/-- MOV: op2 (R173). -/
def opMov : AluOp := fun _ b _ sh => logical b sh

/-- BIC: Rn AND NOT op2 (R174). -/
def opBic : AluOp := fun a b _ sh => logical (a &&& ~~~b) sh

/-- MVN: NOT op2 (R175). -/
def opMvn : AluOp := fun _ b _ sh => logical (~~~b) sh

/-- AND (42_data_processing.md R160). -/
def execAnd (a : DpArgs) (s : State) : Out := execute a.cond (dpBody opAnd false a) s

/-- EOR (R161). -/
def execEor (a : DpArgs) (s : State) : Out := execute a.cond (dpBody opEor false a) s

/-- SUB (R162). -/
def execSub (a : DpArgs) (s : State) : Out := execute a.cond (dpBody opSub false a) s

/-- RSB (R163). -/
def execRsb (a : DpArgs) (s : State) : Out := execute a.cond (dpBody opRsb false a) s

/-- ADD (R164). -/
def execAdd (a : DpArgs) (s : State) : Out := execute a.cond (dpBody opAdd false a) s

/-- ADC (R165). -/
def execAdc (a : DpArgs) (s : State) : Out := execute a.cond (dpBody opAdc false a) s

/-- SBC (R166). -/
def execSbc (a : DpArgs) (s : State) : Out := execute a.cond (dpBody opSbc false a) s

/-- RSC (R167). -/
def execRsc (a : DpArgs) (s : State) : Out := execute a.cond (dpBody opRsc false a) s

/-- TST: the flags of AND (R168). -/
def execTst (a : TestArgs) (s : State) : Out := execute a.cond (testBody opAnd a) s

/-- TEQ: the flags of EOR (R169). -/
def execTeq (a : TestArgs) (s : State) : Out := execute a.cond (testBody opEor a) s

/-- CMP: the flags of SUB (R170). -/
def execCmp (a : TestArgs) (s : State) : Out := execute a.cond (testBody opSub a) s

/-- CMN: the flags of ADD (R171). -/
def execCmn (a : TestArgs) (s : State) : Out := execute a.cond (testBody opAdd a) s

/-- ORR (R172). -/
def execOrr (a : DpArgs) (s : State) : Out := execute a.cond (dpBody opOrr false a) s

/-- MOV; Rn is not read, SBZ under strict (R173, 30_encoding.md R105). -/
def execMov (a : DpArgs) (s : State) : Out := execute a.cond (dpBody opMov (a.rn != 0) a) s

/-- BIC (R174). -/
def execBic (a : DpArgs) (s : State) : Out := execute a.cond (dpBody opBic false a) s

/-- MVN; Rn is not read, SBZ under strict (R175, 30_encoding.md R105). -/
def execMvn (a : DpArgs) (s : State) : Out := execute a.cond (dpBody opMvn (a.rn != 0) a) s

/-- The extension space ends `Unpredictable(ExtensionSpace)` (R176). -/
def execExtension (a : ExtArgs) (s : State) : Out :=
  execute a.cond (fun _ => .error (.unpredictable .extensionSpace)) s

/-- A test opcode with S = 0 ends `UndefinedInstruction(MalformedTestOp)` (R154). -/
def execBadTest (a : BadTestArgs) (s : State) : Out :=
  execute a.cond (fun _ => .error (.undefinedInstruction .malformedTestOp)) s

end Sys2Proof.Machine
end

