-- ==== Sys2Proof/Machine/System.lean ====
section
/-! DEFINITION. The trapping classes: SWI, the Undefined class and the coprocessor classes
(46_dispatch.md R246, R247, R248). -/

namespace Sys2Proof.Machine

/-- A class that always raises one outcome once its condition passes. -/
def raises (c : Cond) (o : NonOk) (s : State) : Out := execute c (fun _ => .error o) s

/-- SWI ends `SoftwareInterrupt(comment)` (46_dispatch.md R246). -/
def execSwi (a : SwiArgs) (s : State) : Out := raises a.cond (.softwareInterrupt a.comment) s

/-- The Undefined class ends `UndefinedInstruction(UndefinedClass)` (R247). -/
def execUndef (a : UndefArgs) (s : State) : Out :=
  raises a.cond (.undefinedInstruction .undefinedClass) s

/-- STC ends `UndefinedInstruction(NoCoprocessor)` (R248). -/
def execStc (a : CdtArgs) (s : State) : Out :=
  raises a.cond (.undefinedInstruction .noCoprocessor) s

/-- LDC (R248). -/
def execLdc (a : CdtArgs) (s : State) : Out :=
  raises a.cond (.undefinedInstruction .noCoprocessor) s

/-- CDP (R248). -/
def execCdp (a : CdpArgs) (s : State) : Out :=
  raises a.cond (.undefinedInstruction .noCoprocessor) s

/-- MCR (R248). -/
def execMcr (a : CrtArgs) (s : State) : Out :=
  raises a.cond (.undefinedInstruction .noCoprocessor) s

/-- MRC (R248). -/
def execMrc (a : CrtArgs) (s : State) : Out :=
  raises a.cond (.undefinedInstruction .noCoprocessor) s

end Sys2Proof.Machine
end

