-- ==== Sys2Proof/Machine/MemoryClasses.lean ====
section
/-! DEFINITION. The memory classes: classified, skipped when their condition fails, and refused by the
spec itself when it passes (20_memory.md R65, 46_dispatch.md R249, 60_exceptions.md R264). -/

namespace Sys2Proof.Machine

/-- A condition-passed word of a memory class ends `Refused(MemoryClass(class))`
(46_dispatch.md R249). -/
def refusesMemory (c : Cond) (m : MemClass) (s : State) : Out :=
  raises c (.refused (.memoryClass m)) s

/-- SWP (R249). -/
def execSwp (a : SwapArgs) (s : State) : Out := refusesMemory a.cond .singleDataSwap s

/-- SWPB (R249). -/
def execSwpb (a : SwapArgs) (s : State) : Out := refusesMemory a.cond .singleDataSwap s

/-- STRH, register offset (R249). -/
def execStrhReg (a : HdtRegArgs) (s : State) : Out :=
  refusesMemory a.cond .halfwordTransferRegister s

/-- LDRH, register offset (R249). -/
def execLdrhReg (a : HdtRegArgs) (s : State) : Out :=
  refusesMemory a.cond .halfwordTransferRegister s

/-- LDRSB, register offset (R249). -/
def execLdrsbReg (a : HdtRegArgs) (s : State) : Out :=
  refusesMemory a.cond .halfwordTransferRegister s

/-- LDRSH, register offset (R249). -/
def execLdrshReg (a : HdtRegArgs) (s : State) : Out :=
  refusesMemory a.cond .halfwordTransferRegister s

/-- The rest of the register-offset halfword class (R249). -/
def execHdtRegOther (a : HdtRegOtherArgs) (s : State) : Out :=
  refusesMemory a.cond .halfwordTransferRegister s

/-- STRH, immediate offset (R249). -/
def execStrhImm (a : HdtImmArgs) (s : State) : Out :=
  refusesMemory a.cond .halfwordTransferImmediate s

/-- LDRH, immediate offset (R249). -/
def execLdrhImm (a : HdtImmArgs) (s : State) : Out :=
  refusesMemory a.cond .halfwordTransferImmediate s

/-- LDRSB, immediate offset (R249). -/
def execLdrsbImm (a : HdtImmArgs) (s : State) : Out :=
  refusesMemory a.cond .halfwordTransferImmediate s

/-- LDRSH, immediate offset (R249). -/
def execLdrshImm (a : HdtImmArgs) (s : State) : Out :=
  refusesMemory a.cond .halfwordTransferImmediate s

/-- The rest of the immediate-offset halfword class (R249). -/
def execHdtImmOther (a : HdtImmOtherArgs) (s : State) : Out :=
  refusesMemory a.cond .halfwordTransferImmediate s

/-- STR (R249). -/
def execStr (a : SdtArgs) (s : State) : Out := refusesMemory a.cond .singleDataTransfer s

/-- LDR (R249). -/
def execLdr (a : SdtArgs) (s : State) : Out := refusesMemory a.cond .singleDataTransfer s

/-- STRB (R249). -/
def execStrb (a : SdtArgs) (s : State) : Out := refusesMemory a.cond .singleDataTransfer s

/-- LDRB (R249). -/
def execLdrb (a : SdtArgs) (s : State) : Out := refusesMemory a.cond .singleDataTransfer s

/-- STM (R249). -/
def execStm (a : BdtArgs) (s : State) : Out := refusesMemory a.cond .blockDataTransfer s

/-- LDM (R249). -/
def execLdm (a : BdtArgs) (s : State) : Out := refusesMemory a.cond .blockDataTransfer s

end Sys2Proof.Machine
end

