-- ==== Sys2Proof/Machine/Multiply.lean ====
section
/-! DEFINITION. Multiply and multiply-long (43_multiply.md R190 to R199). -/

namespace Sys2Proof.Machine

/-- `MultiplyChecks`, short form (43_multiply.md R190). `acc` is A. Under strict, MUL with Rn nonzero
ends `ShouldBeZero` (R190, 30_encoding.md R105), before the other checks (log 18). -/
def mulChecks (strict acc : Bool) (a : MulArgs) : Option NonOk :=
  if strict && !acc && a.rn != 0 then some (.unpredictable .shouldBeZero)
  else if a.rd = 15 ∨ a.rm = 15 ∨ a.rs = 15 ∨ (acc = true ∧ a.rn = 15) then
    some (.undefinedInstruction .pcOperandDisallowed)
  else if a.rd = a.rm then some (.undefinedInstruction .multiplyRegisterConflict)
  else none

/-- `MultiplyChecks`, long form (43_multiply.md R190). -/
def mullChecks (a : MullArgs) : Option NonOk :=
  if a.rdHi = 15 ∨ a.rdLo = 15 ∨ a.rm = 15 ∨ a.rs = 15 then
    some (.undefinedInstruction .pcOperandDisallowed)
  else if a.rdHi = a.rdLo ∨ a.rm = a.rdHi ∨ a.rm = a.rdLo then
    some (.undefinedInstruction .multiplyRegisterConflict)
  else none

/-- The short multiplies: the result of Rm, Rs and Rn, then N and Z with S
(43_multiply.md R191, R192, R197). -/
def mulBody (acc : Bool) (op : Word → Word → Word → Word) (a : MulArgs) (s : State) :
    Except NonOk State :=
  match mulChecks s.cfg.strict acc a with
  | some o => .error o
  | none =>
    let result := op (s.reg a.rm) (s.reg a.rs) (s.reg a.rn)
    let t := s.setReg a.rd result
    .ok (if a.s then { t with cpsr := mulFlags s.cpsr result } else t)

/-- The long multiplies: the 64-bit result of Rm, Rs and the old RdHi:RdLo, then N and Z with S
(43_multiply.md R193 to R197). -/
def mullBody (op : Word → Word → BitVec 64 → BitVec 64) (a : MullArgs) (s : State) :
    Except NonOk State :=
  match mullChecks a with
  | some o => .error o
  | none =>
    let p := op (s.reg a.rm) (s.reg a.rs) (s.reg a.rdHi ++ s.reg a.rdLo)
    let t := (s.setReg a.rdLo (p.extractLsb' 0 32)).setReg a.rdHi (p.extractLsb' 32 32)
    .ok (if a.s then { t with cpsr := mulFlags s.cpsr p } else t)

/-- `Rm * Rs` modulo 2^32 (R191). -/
def opMul (rm rs _rn : Word) : Word := rm * rs

/-- `Rm * Rs + Rn` modulo 2^32 (R192). -/
def opMla (rm rs rn : Word) : Word := rm * rs + rn

/-- The unsigned 64-bit product (R193). -/
def opUmull (rm rs : Word) (_acc : BitVec 64) : BitVec 64 := rm.setWidth 64 * rs.setWidth 64

/-- The unsigned product plus the accumulator, modulo 2^64 (R194). -/
def opUmlal (rm rs : Word) (acc : BitVec 64) : BitVec 64 := rm.setWidth 64 * rs.setWidth 64 + acc

/-- The signed 64-bit product (R195). -/
def opSmull (rm rs : Word) (_acc : BitVec 64) : BitVec 64 := rm.signExtend 64 * rs.signExtend 64

/-- The signed product plus the accumulator, modulo 2^64 (R196). -/
def opSmlal (rm rs : Word) (acc : BitVec 64) : BitVec 64 :=
  rm.signExtend 64 * rs.signExtend 64 + acc

/-- MUL (43_multiply.md R191). -/
def execMul (a : MulArgs) (s : State) : Out := execute a.cond (mulBody false opMul a) s

/-- MLA (R192). -/
def execMla (a : MulArgs) (s : State) : Out := execute a.cond (mulBody true opMla a) s

/-- UMULL (R193). -/
def execUmull (a : MullArgs) (s : State) : Out := execute a.cond (mullBody opUmull a) s

/-- UMLAL (R194). -/
def execUmlal (a : MullArgs) (s : State) : Out := execute a.cond (mullBody opUmlal a) s

/-- SMULL (R195). -/
def execSmull (a : MullArgs) (s : State) : Out := execute a.cond (mullBody opSmull a) s

/-- SMLAL (R196). -/
def execSmlal (a : MullArgs) (s : State) : Out := execute a.cond (mullBody opSmlal a) s

end Sys2Proof.Machine
end

