-- ==== Sys2Proof/Machine/PsrTransfer.lean ====
section
/-! DEFINITION. PSR transfer: MRS and the two forms of MSR (44_psr_transfer.md R210 to R217). -/

namespace Sys2Proof.Machine

/-- `ExecuteMRS` (44_psr_transfer.md R210, R211). -/
def mrsBody (a : MrsArgs) (s : State) : Except NonOk State :=
  if a.rd = 15 then .error (.undefinedInstruction .pcOperandDisallowed)
  else if a.spsr then
    match s.spsr? with
    | none => .error (.undefinedInstruction .noSpsr)
    | some w => .ok (s.setReg a.rd w)
  else .ok (s.setReg a.rd s.cpsr.toWord)

/-- `MSRChecks` (44_psr_transfer.md R213). `imm` is I, `spsr` is R, `c` the control enable, `sbz` says
that I = 0 and bits 11:4 are nonzero. -/
def msrChecks (imm spsr c sbz : Bool) (s : State) : Option NonOk :=
  if s.cfg.strict && sbz then some (.unpredictable .shouldBeZero)
  else if c && imm then some (.undefinedInstruction .msrImmediateControl)
  else if spsr && s.spsr?.isNone then some (.undefinedInstruction .noSpsr)
  else if c && s.cpsr.mode == .usr then some (.undefinedInstruction .msrUserControl)
  else none

/-- The new PSR word: bits 31:28 with f, bits 7:0 with c, bits 27:8 never
(44_psr_transfer.md R214). -/
def msrMerge (f c : Bool) (old operand : Word) : Word :=
  (if f then operand else old).extractLsb' 28 4 ++ old.extractLsb' 8 20 ++
    (if c then operand else old).extractLsb' 0 8

/-- `MSRWrite` (44_psr_transfer.md R214). The mode check fires only with c, since without it the mode
field is the old, valid one. -/
def msrWrite (spsr f c : Bool) (operand : Word) (s : State) : Except NonOk State :=
  if spsr then
    match s.cpsr.mode.exc? with
    | none => .error (.undefinedInstruction .noSpsr)
    | some m =>
      .ok { s with spsrs := s.spsrs.write m (msrMerge f c (s.spsrs.read m) operand) }
  else
    match Psr.ofWord? (msrMerge f c s.cpsr.toWord operand) with
    | none => .error (.unpredictable .invalidMode)
    | some p =>
      if s.cfg.strict && c && p.t != s.cpsr.t then .error (.unpredictable .tBitWrite)
      else .ok { s with cpsr := p }

/-- `ExecuteMSRreg` (44_psr_transfer.md R212). -/
def msrRegBody (a : MsrRegArgs) (s : State) : Except NonOk State :=
  match msrChecks false a.spsr a.c (a.sbz != 0#8) s with
  | some o => .error o
  | none => msrWrite a.spsr a.f a.c (s.reg a.rm) s

/-- `ExecuteMSRimm` (44_psr_transfer.md R216). -/
def msrImmBody (a : MsrImmArgs) (s : State) : Except NonOk State :=
  match msrChecks true a.spsr a.c false s with
  | some o => .error o
  | none => msrWrite a.spsr a.f false (immOperand a.rotate a.imm8 s.cpsr.c).value s

/-- MRS (44_psr_transfer.md R210). -/
def execMrs (a : MrsArgs) (s : State) : Out := execute a.cond (mrsBody a) s

/-- MSR, register form (R212). -/
def execMsrReg (a : MsrRegArgs) (s : State) : Out := execute a.cond (msrRegBody a) s

/-- MSR, immediate form (R216). -/
def execMsrImm (a : MsrImmArgs) (s : State) : Out := execute a.cond (msrImmBody a) s

end Sys2Proof.Machine
end

