-- ==== Sys2Proof/Machine/Dispatch.lean ====
section
/-! DEFINITION. One arm for each instruction: the meaning it calls. -/

namespace Sys2Proof.Machine

def exec (i : Instr) (s : State) : Host.Outcome State Fault Refusal :=
  match i with
  | .mul a => Sys2Proof.Machine.execMul a s
  | .mla a => Sys2Proof.Machine.execMla a s
  | .umull a => Sys2Proof.Machine.execUmull a s
  | .umlal a => Sys2Proof.Machine.execUmlal a s
  | .smull a => Sys2Proof.Machine.execSmull a s
  | .smlal a => Sys2Proof.Machine.execSmlal a s
  | .swp a => Sys2Proof.Machine.execSwp a s
  | .swpb a => Sys2Proof.Machine.execSwpb a s
  | .bx a => Sys2Proof.Machine.execBx a s
  | .strhReg a => Sys2Proof.Machine.execStrhReg a s
  | .ldrhReg a => Sys2Proof.Machine.execLdrhReg a s
  | .ldrsbReg a => Sys2Proof.Machine.execLdrsbReg a s
  | .ldrshReg a => Sys2Proof.Machine.execLdrshReg a s
  | .hdtRegOther a => Sys2Proof.Machine.execHdtRegOther a s
  | .strhImm a => Sys2Proof.Machine.execStrhImm a s
  | .ldrhImm a => Sys2Proof.Machine.execLdrhImm a s
  | .ldrsbImm a => Sys2Proof.Machine.execLdrsbImm a s
  | .ldrshImm a => Sys2Proof.Machine.execLdrshImm a s
  | .hdtImmOther a => Sys2Proof.Machine.execHdtImmOther a s
  | .undef a => Sys2Proof.Machine.execUndef a s
  | .str a => Sys2Proof.Machine.execStr a s
  | .ldr a => Sys2Proof.Machine.execLdr a s
  | .strb a => Sys2Proof.Machine.execStrb a s
  | .ldrb a => Sys2Proof.Machine.execLdrb a s
  | .stm a => Sys2Proof.Machine.execStm a s
  | .ldm a => Sys2Proof.Machine.execLdm a s
  | .b a => Sys2Proof.Machine.execB a s
  | .bl a => Sys2Proof.Machine.execBl a s
  | .stc a => Sys2Proof.Machine.execStc a s
  | .ldc a => Sys2Proof.Machine.execLdc a s
  | .cdp a => Sys2Proof.Machine.execCdp a s
  | .mcr a => Sys2Proof.Machine.execMcr a s
  | .mrc a => Sys2Proof.Machine.execMrc a s
  | .swi a => Sys2Proof.Machine.execSwi a s
  | .mrs a => Sys2Proof.Machine.execMrs a s
  | .msrReg a => Sys2Proof.Machine.execMsrReg a s
  | .msrImm a => Sys2Proof.Machine.execMsrImm a s
  | .extension a => Sys2Proof.Machine.execExtension a s
  | .badTest a => Sys2Proof.Machine.execBadTest a s
  | .and a => Sys2Proof.Machine.execAnd a s
  | .eor a => Sys2Proof.Machine.execEor a s
  | .sub a => Sys2Proof.Machine.execSub a s
  | .rsb a => Sys2Proof.Machine.execRsb a s
  | .add a => Sys2Proof.Machine.execAdd a s
  | .adc a => Sys2Proof.Machine.execAdc a s
  | .sbc a => Sys2Proof.Machine.execSbc a s
  | .rsc a => Sys2Proof.Machine.execRsc a s
  | .tst a => Sys2Proof.Machine.execTst a s
  | .teq a => Sys2Proof.Machine.execTeq a s
  | .cmp a => Sys2Proof.Machine.execCmp a s
  | .cmn a => Sys2Proof.Machine.execCmn a s
  | .orr a => Sys2Proof.Machine.execOrr a s
  | .mov a => Sys2Proof.Machine.execMov a s
  | .bic a => Sys2Proof.Machine.execBic a s
  | .mvn a => Sys2Proof.Machine.execMvn a s

end Sys2Proof.Machine
end

