-- ==== Sys2Proof/Machine/Step.lean ====
section
/-! DEFINITION. One step (46_dispatch.md R250), and how an instruction is placed where it fetches. -/

namespace Sys2Proof.Machine

/-- One step (46_dispatch.md R250, order of R251 and 60_exceptions.md R273): an interrupt, or the
Thumb and alignment checks, the fetch, the decoding, and the instruction. A core whose `run` is not
`running` takes no step: its state stays (46_dispatch.md R245, log 9). -/
def step (s : State) : Host.Outcome State Fault Refusal :=
  match s.run with
  | .stopped => .next s
  | .faulted _ => .next s
  | .refused _ => .next s
  | .running =>
    match boundaryInterrupt s with
    | some k => settle (.interruptTaken k) s
    | none =>
      if s.cpsr.t then settle (.refused .thumbState) s
      else if !pcAligned s.pc then settle (.unpredictable .misalignedPC) s
      else
        match s.fetch with
        | none => settle (.fetchFault s.pc) s
        | some w =>
          match decodeWord w with
          | .error _ => settle (.classificationFailure w) (s.fetched w)
          | .ok i => exec i (s.fetched w)

/-- `s` with the instruction whose bits are `w` stored where `step` fetches next: its word at the pc,
in the byte order of `FETCH_ENDIAN`, and nothing else (log 7). -/
def State.withFetchWord (s : State) (nbits w : Nat) : State :=
  s.placeWord s.pc (tableWord nbits w)

end Sys2Proof.Machine
end

