-- ==== Sys2Proof/Machine/Requests.lean ====
section
/-! DEFINITION. What surrounds the step: the run marks of an outcome that ends a run
(60_exceptions.md R267), the run loop (46_dispatch.md R245), the reset sequence
(70_reset_and_hazards.md R290) and the host's requests (60_exceptions.md R276). -/

namespace Sys2Proof.Machine

/-- A fault as the outcome of the step that met it. -/
def Fault.outcome : Fault → NonOk
  | .unpredictable r => .unpredictable r
  | .fetchFault a => .fetchFault a
  | .classificationFailure w => .classificationFailure w

/-- The record of an outcome that ended the step at `s`: the pc, and the word fetched there when the
outcome came after the fetch (60_exceptions.md R261). -/
def State.finalRecord (s : State) (o : NonOk) : Report :=
  match s.fetch with
  | some w => { s with ir := w }.record o
  | none => s.record o

/-- The state after one step with its run mark. A next state is itself; a fault or a refusal commits
nothing, marks the run and leaves the record (60_exceptions.md R264 to R267, log 8). -/
def State.afterStep (s : State) : State :=
  match step s with
  | .next t => t
  | .fault f => { s with run := .faulted f, report := some (s.finalRecord f.outcome) }
  | .refused r => { s with run := .refused r, report := some (s.finalRecord (.refused r)) }

/-- The run loop, for `n` steps: it steps while `run = running`, and a core that is not running keeps
its state (46_dispatch.md R245). -/
def State.loop : Nat → State → State
  | 0, s => s
  | n + 1, s => State.loop n s.afterStep

/-- The reset sequence on a machine that exists: the parameters, the memory and the interrupt levels
are the platform's and stay; `ir` and `pc_next` are not named by it and stay
(70_reset_and_hazards.md R290). -/
def State.coreReset (s : State) : State :=
  { State.afterReset s.cfg s.mem s.irqReq s.fiqReq with ir := s.ir, pcNext := s.pcNext }

/-- The host's requests (60_exceptions.md R276). -/
inductive Request where
  | stop
  | resume
  | snapshot
  | enter (k : ExcKind) (returnPc : Word)
  | setRequest (irq fiq : Bool)
  | reset
deriving DecidableEq, Repr

/-- What `Snapshot` gives the host: every register of 10_state.md (60_exceptions.md R276). -/
structure Snapshot where
  regs : RegFile
  pc : Word
  cpsr : Word
  spsrs : SpsrFile
deriving DecidableEq, Repr

/-- The copy `Snapshot` returns (60_exceptions.md R276). -/
def State.snapshot (s : State) : Snapshot :=
  { regs := s.regs, pc := s.pc, cpsr := s.cpsr.toWord, spsrs := s.spsrs }

/-- `Stop`: `run <- stopped`. The marks `faulted` and `refused` are kept for the whole run
(60_exceptions.md R276, R264, R265, log 13). -/
def stopRequest (s : State) : Out :=
  match s.run with
  | .running => .next { s with run := .stopped }
  | .stopped => .next s
  | .faulted _ => .next s
  | .refused _ => .next s

/-- `Resume`: `run <- running`, only from `stopped` (60_exceptions.md R276, log 14). -/
def resumeRequest (s : State) : Out :=
  match s.run with
  | .stopped => .next { s with run := .running }
  | .running => .refused .resumeNotStopped
  | .faulted _ => .refused .resumeNotStopped
  | .refused _ => .refused .resumeNotStopped

/-- A host request, acted on between steps only (60_exceptions.md R276, 46_dispatch.md R243, log 14). -/
def hostRequest (r : Request) (s : State) : Out :=
  match s.phase with
  | .decodeExecute => .refused .notAtBoundary
  | .fetch =>
    match r with
    | .stop => stopRequest s
    | .resume => resumeRequest s
    | .snapshot => .next s
    | .enter k returnPc => .next (enterException k returnPc s)
    | .setRequest irq fiq => .next { s with irqReq := irq, fiqReq := fiq }
    | .reset => .next s.coreReset

end Sys2Proof.Machine
end

