-- ==== Sys2Proof/Safety.lean ====
section
/-! DEFINITION. The terms claims use: the states between two steps, when a step fetches and runs an
instruction, and what User mode can see. -/

namespace Sys2Proof.Machine

/-- A configuration the spec allows: `VECTOR_BASE` is word-aligned (00_scope.md R9). -/
abbrev ConfigOk (c : Config) : Prop := pcAligned c.vectorBase = true

/-- What holds between two steps: the memory is canonical, `phase = Fetch`, no PC write is pending,
and the configuration is one the spec allows (10_state.md R38, R40, 46_dispatch.md R243, R244). -/
abbrev State.Inv (s : State) : Prop :=
  s.mem.wf ∧ s.phase = .fetch ∧ s.pcWritten = false ∧ ConfigOk s.cfg

/-- The reserved bits 27:8 of a PSR word are zero (10_state.md R30, R31). -/
abbrev reservedZero (w : Word) : Prop := w.extractLsb' 8 20 = 0#20

/-- The reserved bits of the CPSR and of every SPSR are zero (10_state.md R31). -/
abbrev State.ReservedZero (s : State) : Prop :=
  s.cpsr.reserved = 0#20 ∧ reservedZero s.spsrs.fiq ∧ reservedZero s.spsrs.irq ∧
    reservedZero s.spsrs.svc ∧ reservedZero s.spsrs.abt ∧ reservedZero s.spsrs.und

/-- A step fetches: the core runs, no interrupt is taken, T = 0 and the pc is aligned
(46_dispatch.md R250). -/
abbrev State.Ready (s : State) : Prop :=
  s.run = .running ∧ boundaryInterrupt s = none ∧ s.cpsr.t = false ∧ pcAligned s.pc = true

/-- A safe step: it answers a next state. -/
abbrev State.StepsOn (s : State) : Prop := ∃ t, step s = .next t

/-- Two states in User mode that differ at most in what User mode cannot name: the registers of the
other banks and the SPSRs (10_state.md R24, R36). -/
structure UserAgree (s t : State) : Prop where
  cfg : s.cfg = t.cfg
  pc : s.pc = t.pc
  cpsr : s.cpsr = t.cpsr
  user : s.cpsr.mode = .usr
  visible : ∀ i : Reg, s.reg i = t.reg i
  mem : s.mem = t.mem
  phase : s.phase = t.phase
  ir : s.ir = t.ir
  pcNext : s.pcNext = t.pcNext
  pcWritten : s.pcWritten = t.pcWritten
  irqReq : s.irqReq = t.irqReq
  fiqReq : s.fiqReq = t.fiqReq
  run : s.run = t.run
  report : s.report = t.report

/-! When an instruction executes. -/

/-- An instruction with this condition executes (40_condition.md R120). -/
abbrev Passes (c : Cond) (s : State) : Prop := conditionPassed c s.cpsr = some true

/-- The register fields STRICT_UNPREDICTABLE allows a data-processing instruction: no r15 as Rd, Rn or
Rm beside a register-specified shift (42_data_processing.md R177). Without it, every one. -/
def OperandAllowed (s : State) (rn rd : Reg) (o : Operand2) : Prop :=
  match o with
  | .imm _ _ => True
  | .shiftImm _ _ _ => True
  | .shiftReg rm _ _ => s.cfg.strict = true → rd ≠ 15 ∧ rn ≠ 15 ∧ rm ≠ 15

/-- The register fields a short multiply may have (43_multiply.md R190); `acc` is A. -/
def MultiplyAllowed (s : State) (acc : Bool) (a : MulArgs) : Prop :=
  a.rd ≠ 15 ∧ a.rm ≠ 15 ∧ a.rs ≠ 15 ∧ (acc = true → a.rn ≠ 15) ∧ a.rd ≠ a.rm ∧
    (s.cfg.strict = true → acc = false → a.rn = 0)

/-- The register fields a long multiply may have (43_multiply.md R190). -/
def MultiplyLongAllowed (a : MullArgs) : Prop :=
  a.rdHi ≠ 15 ∧ a.rdLo ≠ 15 ∧ a.rm ≠ 15 ∧ a.rs ≠ 15 ∧
    a.rdHi ≠ a.rdLo ∧ a.rm ≠ a.rdHi ∧ a.rm ≠ a.rdLo

/-- A data-processing instruction that writes Rd: its constructor, its result from operand 1,
operand 2 and `cpsr.C`, and whether it reads Rn (42_data_processing.md R160 to R167, R172 to R175). -/
structure WritingOp where
  instr : DpArgs → Instr
  result : Word → Word → Bool → Word
  readsRn : Bool

/-- NOT C as a word. -/
abbrev borrowOf (c : Bool) : Word := (BitVec.ofBool (!c)).setWidth 32

/-- The twelve data-processing instructions that write Rd. -/
def writingOps : List WritingOp :=
  [ ⟨.and, fun a b _ => a &&& b, true⟩
  , ⟨.eor, fun a b _ => a ^^^ b, true⟩
  , ⟨.sub, fun a b _ => a - b, true⟩
  , ⟨.rsb, fun a b _ => b - a, true⟩
  , ⟨.add, fun a b _ => a + b, true⟩
  , ⟨.adc, fun a b c => a + b + (BitVec.ofBool c).setWidth 32, true⟩
  , ⟨.sbc, fun a b c => a - b - borrowOf c, true⟩
  , ⟨.rsc, fun a b c => b - a - borrowOf c, true⟩
  , ⟨.orr, fun a b _ => a ||| b, true⟩
  , ⟨.mov, fun _ b _ => b, false⟩
  , ⟨.bic, fun a b _ => a &&& ~~~b, true⟩
  , ⟨.mvn, fun _ b _ => ~~~b, false⟩ ]

/-- The four test instructions. -/
def testOps : List (TestArgs → Instr) := [.tst, .teq, .cmp, .cmn]

/-- The SBZ field of MOV and MVN under STRICT_UNPREDICTABLE (30_encoding.md R105). -/
abbrev RnAllowed (s : State) (e : WritingOp) (rn : Reg) : Prop :=
  e.readsRn = false → s.cfg.strict = true → rn = 0

/-! What an instruction that completes leaves. -/

/-- What every instruction that completes leaves alone, and the hidden state it returns to: the
parameters, every byte of memory, the interrupt levels and the run mark are unchanged
(46_dispatch.md R244, 20_memory.md R64). -/
structure Completes (s t : State) : Prop where
  cfg : t.cfg = s.cfg
  mem : t.mem = s.mem
  byte : ∀ a : Nat, t.mem.readByte a = s.mem.readByte a
  ir : t.ir = s.ir
  phase : t.phase = .fetch
  pcWritten : t.pcWritten = false
  irqReq : t.irqReq = s.irqReq
  fiqReq : t.fiqReq = s.fiqReq
  run : t.run = s.run
  report : t.report = none

/-- `x[rd] <- v` and nothing else among the general registers: the physical register that `rd` names
in the mode of `s` holds `v`, every other register of every bank is unchanged. With rd = 15 no
physical register changes (10_state.md R24, R28). -/
def WritesReg (s t : State) (rd : Reg) (v : Word) : Prop :=
  ∀ p : PhysReg,
    t.regs.read p = if phys s.cfg.fiqBanks s.cpsr.mode rd = some p then v else s.regs.read p

/-- Every general register of every bank is unchanged. -/
def KeepsRegs (s t : State) : Prop := ∀ p : PhysReg, t.regs.read p = s.regs.read p

/-- Every SPSR is unchanged. -/
def KeepsSpsrs (s t : State) : Prop := ∀ m : ExcMode, t.spsrs.read m = s.spsrs.read m

/-- The four flags hold these values, the CPSR's other bits are unchanged. -/
def WritesFlags (s t : State) (n z c v : Bool) : Prop :=
  t.cpsr = { s.cpsr with n := n, z := z, c := c, v := v }

/-- A data-processing instruction that completes with a result, the C and V it would set, and its
S bit: the result goes to Rd, or to the pc when Rd is r15; with S the four flags are written, and
without S no flag (42_data_processing.md R150, R153). -/
structure WritesResult (s t : State) (sBit : Bool) (rd : Reg) (v : Word) (c o : Bool) : Prop where
  completes : Completes s t
  pc : t.pc = if rd = 15 then v else s.pc + 4#32
  regs : WritesReg s t rd v
  spsrs : KeepsSpsrs s t
  flags : sBit = true → WritesFlags s t (v.getLsbD 31) (decide (v = 0#32)) c o
  noFlags : sBit = false → t.cpsr = s.cpsr

/-- A test instruction that completes: the four flags and nothing else (42_data_processing.md R154). -/
structure WritesFlagsOnly (s t : State) (n z c v : Bool) : Prop where
  completes : Completes s t
  pc : t.pc = s.pc + 4#32
  regs : KeepsRegs s t
  spsrs : KeepsSpsrs s t
  flags : WritesFlags s t n z c v

/-- `v`, `c` and `o` are the sum of two words and a carry-in, its carry out of bit 31 and its signed
overflow (42_data_processing.md R151, R155). -/
structure SumOf (x y : Word) (cin : Bool) (v : Word) (c o : Bool) : Prop where
  value : v.toNat = (x.toNat + y.toNat + cin.toNat) % 2 ^ 32
  carry : c = decide (2 ^ 32 ≤ x.toNat + y.toNat + cin.toNat)
  overflow : o = decide (x.toInt + y.toInt + cin.toNat < -2 ^ 31 ∨
    2 ^ 31 ≤ x.toInt + y.toInt + cin.toNat)

/-- `v`, `c` and `o` are the difference of two words less a borrow, "no borrow occurred", and its
signed overflow (42_data_processing.md R151, R155). -/
structure DifferenceOf (x y : Word) (borrow : Bool) (v : Word) (c o : Bool) : Prop where
  value : (v.toNat : Int) = ((x.toNat : Int) - y.toNat - borrow.toNat) % 2 ^ 32
  noBorrow : c = decide (y.toNat + borrow.toNat ≤ x.toNat)
  overflow : o = decide (x.toInt - y.toInt - borrow.toNat < -2 ^ 31 ∨
    2 ^ 31 ≤ x.toInt - y.toInt - borrow.toNat)

/-- A long multiply that completes with a 64-bit result: RdLo and RdHi of the current mode hold its
halves, N and Z are written with S, nothing else changes (43_multiply.md R193 to R197). -/
structure WritesLong (s t : State) (a : MullArgs) (p : BitVec 64) : Prop where
  completes : Completes s t
  pc : t.pc = s.pc + 4#32
  regs : ∀ q : PhysReg, t.regs.read q =
    if phys s.cfg.fiqBanks s.cpsr.mode a.rdLo = some q then p.extractLsb' 0 32
    else if phys s.cfg.fiqBanks s.cpsr.mode a.rdHi = some q then p.extractLsb' 32 32
    else s.regs.read q
  spsrs : KeepsSpsrs s t
  flags : a.s = true → WritesFlags s t (p.getLsbD 63) (decide (p = 0#64)) s.cpsr.c s.cpsr.v
  noFlags : a.s = false → t.cpsr = s.cpsr

/-- `new` is `old` with bits 31:28 of the operand where `f`, and bits 7:0 where `c`
(44_psr_transfer.md R214). -/
def Merged (f c : Bool) (old operand new : Word) : Prop :=
  ∀ k < 32, new.getLsbD k =
    if f = true ∧ 28 ≤ k then operand.getLsbD k
    else if c = true ∧ k < 8 then operand.getLsbD k
    else old.getLsbD k

/-- An MSR to the CPSR that completes (44_psr_transfer.md R214, R215). -/
structure WritesCpsr (s t : State) (f c : Bool) (operand : Word) : Prop where
  completes : Completes s t
  pc : t.pc = s.pc + 4#32
  regs : KeepsRegs s t
  spsrs : KeepsSpsrs s t
  cpsr : Merged f c s.cpsr.toWord operand t.cpsr.toWord

/-- An MSR to the SPSR of mode `m` that completes (44_psr_transfer.md R214). -/
structure WritesSpsr (s t : State) (m : ExcMode) (f c : Bool) (operand : Word) : Prop where
  completes : Completes s t
  pc : t.pc = s.pc + 4#32
  regs : KeepsRegs s t
  cpsr : t.cpsr = s.cpsr
  spsr : Merged f c (s.spsrs.read m) operand (t.spsrs.read m)
  others : ∀ n, n ≠ m → t.spsrs.read n = s.spsrs.read n

/-! What a trap, an interrupt or a request to enter an exception leaves. -/

/-- The entry of an exception at the state `s` (60_exceptions.md R269, R270): the CPSR is saved whole
in the SPSR of the new mode, the mode changes, T is cleared, I set, F set only where `setsF`, r14 of
the new mode gets the link value, the pc goes to the vector, and nothing else changes. -/
structure Entered (s t : State) (m : ExcMode) (offset link : Word) (setsF : Bool) : Prop where
  pc : t.pc = s.cfg.vectorBase + offset
  cpsr : t.cpsr = { s.cpsr with mode := m.mode, t := false, i := true, f := s.cpsr.f || setsF }
  saved : t.spsrs.read m = s.cpsr.toWord
  spsrs : ∀ n, n ≠ m → t.spsrs.read n = s.spsrs.read n
  link : t.regs.read (.lr m.bank) = link
  regs : ∀ p, p ≠ .lr m.bank → t.regs.read p = s.regs.read p
  cfg : t.cfg = s.cfg
  mem : t.mem = s.mem
  ir : t.ir = s.ir
  phase : t.phase = .fetch
  pcWritten : t.pcWritten = false
  irqReq : t.irqReq = s.irqReq
  fiqReq : t.fiqReq = s.fiqReq
  run : t.run = s.run

/-- A trap at the instruction of `s` with its outcome: under `apply` the exception is entered with
the return address `pc + 4`, under `report` the state is unchanged but that the run stops; either way
the record goes to the caller (60_exceptions.md R261, R268). -/
def Traps (s : State) (out : Out) (m : ExcMode) (offset : Word) (o : NonOk) (ir : Option Word) :
    Prop :=
  (s.cfg.trapEntry = .apply →
    ∃ t, out = .next t ∧ Entered s t m offset (s.pc + 4#32) false ∧
      t.report = some ⟨o, s.pc, ir⟩) ∧
  (s.cfg.trapEntry = .report →
    out = .next { s with
      pcWritten := false, phase := .fetch, run := .stopped, report := some ⟨o, s.pc, ir⟩ })

/-- An undefined-instruction trap with its reason (60_exceptions.md R260, R269). -/
def TrapsUndefined (s : State) (out : Out) (r : UndefReason) : Prop :=
  Traps s out .und 0x04#32 (.undefinedInstruction r) (some s.ir)

end Sys2Proof.Machine
end

