-- ==== Sys2Proof/Certificates/Slice0/Obligations.lean ====
section
/-! DEFINITION. The statements for the provers. -/

open Sys2Proof Sys2Proof.Machine

/-! Decoding. -/

/-- At least one word of each of the seventeen classes, and of each format and malformed subspace,
decodes to its instruction (30_encoding.md R82 to R95, R101, R104, R110). -/
def Obligations.WrittenWordsDecode : Prop :=
  decodeWord 0xE0910002#32 = .ok (.add ⟨.al, true, 1, 0, .shiftImm 2 .lsl 0#5⟩) ∧
  decodeWord 0xE3110102#32 = .ok (.tst ⟨.al, 1, 0, .imm 1#4 2#8⟩) ∧
  decodeWord 0xE08F0312#32 = .ok (.add ⟨.al, false, 15, 0, .shiftReg 2 .lsl 3⟩) ∧
  decodeWord 0xE0203291#32 = .ok (.mla ⟨.al, false, 0, 3, 2, 1⟩) ∧
  decodeWord 0xE0D10392#32 = .ok (.smull ⟨.al, true, 1, 0, 3, 2⟩) ∧
  decodeWord 0xE14F0000#32 = .ok (.mrs ⟨.al, true, 0⟩) ∧
  decodeWord 0xE129F000#32 = .ok (.msrReg ⟨.al, false, true, false, false, true, 0#8, 0⟩) ∧
  decodeWord 0xE328F4F0#32 = .ok (.msrImm ⟨.al, false, true, false, false, false, 4#4, 0xF0#8⟩) ∧
  decodeWord 0x0A000010#32 = .ok (.b ⟨.eq, 0x10#24⟩) ∧
  decodeWord 0xEB000001#32 = .ok (.bl ⟨.al, 1#24⟩) ∧
  decodeWord 0xE12FFF10#32 = .ok (.bx ⟨.al, 0⟩) ∧
  decodeWord 0xEF123456#32 = .ok (.swi ⟨.al, 0x123456#24⟩) ∧
  decodeWord 0xE6000010#32 = .ok (.undef ⟨.al, 0#20, 0#4⟩) ∧
  decodeWord 0xE1010002#32 = .ok (.badTest ⟨.al, false, .tst, 1, 0, 2#12⟩) ∧
  decodeWord 0xE00001B2#32 = .ok (.extension ⟨.al, 0#4, false, 0, 0, 1#4, 1#2, 2#4⟩) ∧
  decodeWord 0xE5910000#32 = .ok (.ldr ⟨.al, false, true, true, false, 1, 0, 0#12⟩) ∧
  decodeWord 0xE1020091#32 = .ok (.swp ⟨.al, 2, 0, 1⟩) ∧
  decodeWord 0xE1420091#32 = .ok (.swpb ⟨.al, 2, 0, 1⟩) ∧
  decodeWord 0xE18100B2#32 = .ok (.strhReg ⟨.al, true, true, false, 1, 0, 2⟩) ∧
  decodeWord 0xE1D100B0#32 = .ok (.ldrhImm ⟨.al, true, true, false, 1, 0, 0#4, 0#4⟩) ∧
  decodeWord 0xE92D0001#32 = .ok (.stm ⟨.al, true, false, false, true, 13, 1#16⟩) ∧
  decodeWord 0xED910100#32 = .ok (.ldc ⟨.al, true, true, false, false, 1, 0#4, 1#4, 0#8⟩) ∧
  decodeWord 0xEE000000#32 = .ok (.cdp ⟨.al, 0#4, 0#4, 0#4, 0#4, 0#3, 0#4⟩) ∧
  decodeWord 0xEE100F10#32 = .ok (.mrc ⟨.al, 0#3, 0#4, 0, 15#4, 0#3, 0#4⟩)

/-- Decoding the word of a well-formed instruction gives the instruction back, every field of it
(30_encoding.md R81 to R100, R110). That terms keep the ignored and SBZ fields is the model's choice
(log 17). -/
def Obligations.DecodeInvertsEncode : Prop :=
  ∀ i : Instr, i.wf = true → decodeWord (encode i) = .ok i

/-- Decoding is total, its answer is well-formed, and encoding the answer gives the word back
(30_encoding.md R81 to R102, R110). That no other word has the same instruction term is the model's
choice: terms keep the ignored and SBZ fields, which the block itself may not read (R105, log 17). -/
def Obligations.EveryWordDecodes : Prop :=
  ∀ w : Word, ∃ i, decodeWord w = .ok i ∧ i.wf = true ∧ encode i = w

/-- The first row of the opcode table that matches a word has the class the classifier's seventeen
entries give it (30_encoding.md R101, R110). -/
def Obligations.RowsAgreeWithClassifier : Prop :=
  ∀ w : Word, ∃ r ∈ opcodeTable, rowOf w = some r ∧ classify w = some r.cls

/-- Four bytes make the word in the order of FETCH_ENDIAN; fewer than four are rejected by name
(20_memory.md R66, 30_encoding.md R80). -/
def Obligations.BytesDecodeInOrder : Prop :=
  (∀ (b0 b1 b2 b3 : Byte) (rest : List Byte) (i : Instr),
    (decodeWord (b3 ++ b2 ++ b1 ++ b0) = .ok i →
      decodeBytes .little (b0 :: b1 :: b2 :: b3 :: rest) = .ok (i, rest)) ∧
    (decodeWord (b0 ++ b1 ++ b2 ++ b3) = .ok i →
      decodeBytes .big (b0 :: b1 :: b2 :: b3 :: rest) = .ok (i, rest))) ∧
  ∀ (e : Endian) (bs : List Byte), bs.length < 4 → decodeBytes e bs = .error .truncated

/-! The step. -/

/-- When the bytes at the pc decode to an instruction, and the core runs with no interrupt taken,
T = 0 and an aligned pc, the step is that instruction at the state that has fetched it
(46_dispatch.md R241, R250). -/
def Obligations.StepRunsDecoded : Prop :=
  ∀ (s : State) (b0 b1 b2 b3 : Byte) (i : Instr), s.Ready →
    s.mem.readByte s.pc.toNat = some b0 → s.mem.readByte (s.pc.toNat + 1) = some b1 →
    s.mem.readByte (s.pc.toNat + 2) = some b2 → s.mem.readByte (s.pc.toNat + 3) = some b3 →
    decodeBytes s.cfg.fetchEndian [b0, b1, b2, b3] = .ok (i, []) →
    step s = exec i { s with
      ir := wordOfBytes s.cfg.fetchEndian b0 b1 b2 b3, phase := .decodeExecute }

/-- With T = 1 a step is refused, and else a misaligned pc is a fault, whatever memory holds
(46_dispatch.md R240, R241, R251). -/
def Obligations.StopsBeforeFetch : Prop :=
  ∀ s : State, s.run = .running → boundaryInterrupt s = none →
    (s.cpsr.t = true → step s = .refused .thumbState) ∧
    (s.cpsr.t = false → s.pc.toNat % 4 ≠ 0 → step s = .fault (.unpredictable .misalignedPC))

/-- A fetch that faults is surfaced, or is the prefetch abort, by FETCH_FAULT_POLICY
(46_dispatch.md R241, 60_exceptions.md R263, R269). That a byte with no value makes `Fetch` answer
Fault is the model's choice (log 6). -/
def Obligations.FetchFaultRouted : Prop :=
  ∀ (s : State) (k : Nat), s.Ready → k < 4 → s.mem.readByte (s.pc.toNat + k) = none →
    (s.cfg.fetchFaultPolicy = .surface → step s = .fault (.fetchFault s.pc)) ∧
    (s.cfg.fetchFaultPolicy = .prefetchAbort →
      Traps s (step s) .abt 0x0C#32 (.fetchFault s.pc) none)

/-- Under `apply` an unmasked FIQ, and else an unmasked IRQ, is taken before the fetch, whatever the
T bit, the pc and the memory; the return address is `pc + 4`. Under `report`, or when both are masked
or low, no interrupt is taken (60_exceptions.md R269, R272, R273). -/
def Obligations.InterruptsTaken : Prop :=
  ∀ s : State, s.run = .running →
    (s.cfg.trapEntry = .apply → s.fiqReq = true → s.cpsr.f = false →
      ∃ t, step s = .next t ∧ Entered s t .fiq 0x1C#32 (s.pc + 4#32) true ∧
        t.report = some ⟨.interruptTaken .fiq, s.pc, none⟩) ∧
    (s.cfg.trapEntry = .apply → (s.fiqReq = false ∨ s.cpsr.f = true) → s.irqReq = true →
      s.cpsr.i = false →
      ∃ t, step s = .next t ∧ Entered s t .irq 0x18#32 (s.pc + 4#32) false ∧
        t.report = some ⟨.interruptTaken .irq, s.pc, none⟩) ∧
    (s.cfg.trapEntry = .report ∨
      ((s.fiqReq = false ∨ s.cpsr.f = true) ∧ (s.irqReq = false ∨ s.cpsr.i = true)) →
      boundaryInterrupt s = none)

/-! The condition. -/

/-- The condition table, by the four condition bits; `1111` traps every instruction
(40_condition.md R120, R121). -/
def Obligations.ConditionDecidesExecution : Prop :=
  (∀ p : Psr,
    (conditionPassed (Cond.ofBits 0b0000#4) p = some true ↔ p.z = true) ∧
    (conditionPassed (Cond.ofBits 0b0001#4) p = some true ↔ p.z = false) ∧
    (conditionPassed (Cond.ofBits 0b0010#4) p = some true ↔ p.c = true) ∧
    (conditionPassed (Cond.ofBits 0b0011#4) p = some true ↔ p.c = false) ∧
    (conditionPassed (Cond.ofBits 0b0100#4) p = some true ↔ p.n = true) ∧
    (conditionPassed (Cond.ofBits 0b0101#4) p = some true ↔ p.n = false) ∧
    (conditionPassed (Cond.ofBits 0b0110#4) p = some true ↔ p.v = true) ∧
    (conditionPassed (Cond.ofBits 0b0111#4) p = some true ↔ p.v = false) ∧
    (conditionPassed (Cond.ofBits 0b1000#4) p = some true ↔ p.c = true ∧ p.z = false) ∧
    (conditionPassed (Cond.ofBits 0b1001#4) p = some true ↔ p.c = false ∨ p.z = true) ∧
    (conditionPassed (Cond.ofBits 0b1010#4) p = some true ↔ p.n = p.v) ∧
    (conditionPassed (Cond.ofBits 0b1011#4) p = some true ↔ p.n ≠ p.v) ∧
    (conditionPassed (Cond.ofBits 0b1100#4) p = some true ↔ p.z = false ∧ p.n = p.v) ∧
    (conditionPassed (Cond.ofBits 0b1101#4) p = some true ↔ p.z = true ∨ p.n ≠ p.v) ∧
    conditionPassed (Cond.ofBits 0b1110#4) p = some true ∧
    ∀ b : BitVec 4, conditionPassed (Cond.ofBits b) p = none ↔ b = 0b1111#4) ∧
  ∀ (i : Instr) (s : State), i.cond = Cond.ofBits 0b1111#4 →
    TrapsUndefined s (exec i s) .undefinedCondition

/-- An instruction of any class whose condition fails only moves the pc by 4; it raises nothing
(40_condition.md R122, 10_state.md R29). -/
def Obligations.FailedConditionSkips : Prop :=
  ∀ (i : Instr) (s : State), conditionPassed i.cond s.cpsr = some false →
    ∃ t, exec i s = .next t ∧ Completes s t ∧ t.pc = s.pc + 4#32 ∧ t.cpsr = s.cpsr ∧
      KeepsRegs s t ∧ KeepsSpsrs s t

/-! The shifter. -/

/-- The immediate operand is the byte rotated right by twice the rotate field; the carry-out is its
top bit, or C when the field is 0 (41_shifter.md R130). -/
def Obligations.ImmediateOperandRotates : Prop :=
  ∀ (rotate : BitVec 4) (imm8 : Byte) (c : Bool),
    (∀ k < 32, (immOperand rotate imm8 c).value.getLsbD k =
      imm8.getLsbD ((k + 2 * rotate.toNat) % 32)) ∧
    (immOperand rotate imm8 c).carry =
      if rotate = 0#4 then c else (immOperand rotate imm8 c).value.getLsbD 31

/-- LSL in both forms (41_shifter.md R132). -/
def Obligations.LeftShift : Prop :=
  ∀ (v : Word) (c : Bool) (n : Nat) (r : Shifted),
    ((∃ a : BitVec 5, n = a.toNat ∧ r = shiftByImm .lsl v a c) ∨
      (∃ b : Byte, n = b.toNat ∧ r = shiftByReg .lsl v b c)) →
    r.value.toNat = v.toNat * 2 ^ n % 2 ^ 32 ∧
    r.carry = if n = 0 then c else if n ≤ 32 then v.getLsbD (32 - n) else false

/-- LSR in both forms; an immediate amount 0 means 32 (41_shifter.md R133). -/
def Obligations.LogicalRightShift : Prop :=
  ∀ (v : Word) (c : Bool) (n : Nat) (r : Shifted),
    ((∃ a : BitVec 5, n = (if a = 0#5 then 32 else a.toNat) ∧ r = shiftByImm .lsr v a c) ∨
      (∃ b : Byte, n = b.toNat ∧ r = shiftByReg .lsr v b c)) →
    r.value.toNat = v.toNat / 2 ^ n ∧
    r.carry = if n = 0 then c else if n ≤ 32 then v.getLsbD (n - 1) else false

/-- ASR in both forms; an immediate amount 0 means 32 (41_shifter.md R134). -/
def Obligations.ArithmeticRightShift : Prop :=
  ∀ (v : Word) (c : Bool) (n : Nat) (r : Shifted),
    ((∃ a : BitVec 5, n = (if a = 0#5 then 32 else a.toNat) ∧ r = shiftByImm .asr v a c) ∨
      (∃ b : Byte, n = b.toNat ∧ r = shiftByReg .asr v b c)) →
    r.value.toInt = v.toInt / 2 ^ n ∧
    r.carry = if n = 0 then c else if n ≤ 31 then v.getLsbD (n - 1) else v.getLsbD 31

/-- ROR in both forms, for every amount, and RRX, the immediate amount 0. The amounts above 32 are
the spec's decision D15 (41_shifter.md R135, R136). -/
def Obligations.RotateRight : Prop :=
  ∀ (v : Word) (c : Bool),
    (∀ (n : Nat) (r : Shifted),
      ((∃ a : BitVec 5, a ≠ 0#5 ∧ n = a.toNat ∧ r = shiftByImm .ror v a c) ∨
        (∃ b : Byte, n = b.toNat ∧ r = shiftByReg .ror v b c)) →
      (∀ k < 32, r.value.getLsbD k = v.getLsbD ((k + n) % 32)) ∧
      r.carry = if n = 0 then c else v.getLsbD ((n - 1) % 32)) ∧
    (shiftByImm .ror v 0#5 c).value.toNat = v.toNat / 2 + c.toNat * 2 ^ 31 ∧
    (shiftByImm .ror v 0#5 c).carry = v.getLsbD 0

/-- What each form of operand 2, and operand 1 beside it, reads: `pc + 8` for r15, `pc + 12` beside a
register-specified shift, the low byte of Rs as the amount (41_shifter.md R131, R137,
42_data_processing.md R178). -/
def Obligations.OperandForms : Prop :=
  ∀ (s : State) (rn rm rs : Reg) (ty : ShiftType) (amount : BitVec 5) (rotate : BitVec 4)
    (imm8 : Byte),
    shifterOperand (.imm rotate imm8) s = .ok (immOperand rotate imm8 s.cpsr.c) ∧
    shifterOperand (.shiftImm rm ty amount) s = .ok (shiftByImm ty (s.reg rm) amount s.cpsr.c) ∧
    (rs ≠ 15 → rm ≠ 15 → shifterOperand (.shiftReg rm ty rs) s =
      .ok (shiftByReg ty (s.reg rm) ((s.reg rs).extractLsb' 0 8) s.cpsr.c)) ∧
    (rs ≠ 15 → shifterOperand (.shiftReg 15 ty rs) s =
      .ok (shiftByReg ty (s.pc + 12#32) ((s.reg rs).extractLsb' 0 8) s.cpsr.c)) ∧
    shifterOperand (.shiftReg rm ty 15) s =
      .error (.undefinedInstruction .pcOperandDisallowed) ∧
    operand1 rn (.imm rotate imm8) s = s.reg rn ∧
    operand1 rn (.shiftImm rm ty amount) s = s.reg rn ∧
    (rn ≠ 15 → operand1 rn (.shiftReg rm ty rs) s = s.reg rn) ∧
    operand1 15 (.shiftReg rm ty rs) s = s.pc + 12#32

/-! Registers. -/

/-- The banking map, and the read of a visible register through it; r15 reads `pc + 8`
(10_state.md R20, R24, R27). -/
def Obligations.BankingMap : Prop :=
  ∀ s : State,
    s.reg 15 = s.pc + 8#32 ∧
    s.reg 13 = s.regs.read (.sp s.cpsr.mode.bank) ∧
    s.reg 14 = s.regs.read (.lr s.cpsr.mode.bank) ∧
    (∀ (i : Reg) (h : i.val < 8), s.reg i = s.regs.read (.low ⟨i.val, h⟩)) ∧
    (∀ (i : Reg) (k : Fin 5), i.val = 8 + k.val →
      s.reg i = if s.cpsr.mode = .fiq ∧ s.cfg.fiqBanks = true then s.regs.read (.midFiq k)
        else s.regs.read (.mid k)) ∧
    Mode.bank .usr = .usr ∧ Mode.bank .sys = .usr ∧ Mode.bank .fiq = .fiq ∧
    Mode.bank .irq = .irq ∧ Mode.bank .svc = .svc ∧ Mode.bank .abt = .abt ∧ Mode.bank .und = .und

/-! Data processing. -/

/-- The six logical instructions complete, with their result, their flags and their frame, in every
form that is no return (42_data_processing.md R150, R151, R153, R155, R160, R161, R172 to R175). -/
def Obligations.LogicalResults : Prop :=
  ∀ (a : DpArgs) (s : State) (sh : Shifted), Passes a.cond s →
    OperandAllowed s a.rn a.rd a.op2 → ¬(a.s = true ∧ a.rd = 15) →
    shifterOperand a.op2 s = .ok sh →
    (∃ t, exec (.and a) s = .next t ∧
      WritesResult s t a.s a.rd (operand1 a.rn a.op2 s &&& sh.value) sh.carry s.cpsr.v) ∧
    (∃ t, exec (.eor a) s = .next t ∧
      WritesResult s t a.s a.rd (operand1 a.rn a.op2 s ^^^ sh.value) sh.carry s.cpsr.v) ∧
    (∃ t, exec (.orr a) s = .next t ∧
      WritesResult s t a.s a.rd (operand1 a.rn a.op2 s ||| sh.value) sh.carry s.cpsr.v) ∧
    (∃ t, exec (.bic a) s = .next t ∧
      WritesResult s t a.s a.rd (operand1 a.rn a.op2 s &&& ~~~sh.value) sh.carry s.cpsr.v) ∧
    ((s.cfg.strict = true → a.rn = 0) →
      (∃ t, exec (.mov a) s = .next t ∧
        WritesResult s t a.s a.rd sh.value sh.carry s.cpsr.v) ∧
      (∃ t, exec (.mvn a) s = .next t ∧
        WritesResult s t a.s a.rd (~~~sh.value) sh.carry s.cpsr.v))

/-- The six arithmetic instructions complete, with their result, their flags and their frame, in every
form that is no return (42_data_processing.md R150, R151, R153, R155, R162 to R167). -/
def Obligations.ArithmeticResults : Prop :=
  ∀ (a : DpArgs) (s : State) (sh : Shifted), Passes a.cond s →
    OperandAllowed s a.rn a.rd a.op2 → ¬(a.s = true ∧ a.rd = 15) →
    shifterOperand a.op2 s = .ok sh →
    (∃ t v c o, exec (.add a) s = .next t ∧ WritesResult s t a.s a.rd v c o ∧
      SumOf (operand1 a.rn a.op2 s) sh.value false v c o) ∧
    (∃ t v c o, exec (.adc a) s = .next t ∧ WritesResult s t a.s a.rd v c o ∧
      SumOf (operand1 a.rn a.op2 s) sh.value s.cpsr.c v c o) ∧
    (∃ t v c o, exec (.sub a) s = .next t ∧ WritesResult s t a.s a.rd v c o ∧
      DifferenceOf (operand1 a.rn a.op2 s) sh.value false v c o) ∧
    (∃ t v c o, exec (.sbc a) s = .next t ∧ WritesResult s t a.s a.rd v c o ∧
      DifferenceOf (operand1 a.rn a.op2 s) sh.value (!s.cpsr.c) v c o) ∧
    (∃ t v c o, exec (.rsb a) s = .next t ∧ WritesResult s t a.s a.rd v c o ∧
      DifferenceOf sh.value (operand1 a.rn a.op2 s) false v c o) ∧
    (∃ t v c o, exec (.rsc a) s = .next t ∧ WritesResult s t a.s a.rd v c o ∧
      DifferenceOf sh.value (operand1 a.rn a.op2 s) (!s.cpsr.c) v c o)

/-- The four test instructions complete: they write the flags of AND, EOR, SUB and ADD and nothing
else (42_data_processing.md R150, R151, R154, R168 to R171). -/
def Obligations.TestResults : Prop :=
  ∀ (a : TestArgs) (s : State) (sh : Shifted), Passes a.cond s →
    OperandAllowed s a.rn a.rd a.op2 → (s.cfg.strict = true → a.rd = 0) →
    shifterOperand a.op2 s = .ok sh →
    (∃ t, exec (.tst a) s = .next t ∧
      WritesFlagsOnly s t ((operand1 a.rn a.op2 s &&& sh.value).getLsbD 31)
        (decide (operand1 a.rn a.op2 s &&& sh.value = 0#32)) sh.carry s.cpsr.v) ∧
    (∃ t, exec (.teq a) s = .next t ∧
      WritesFlagsOnly s t ((operand1 a.rn a.op2 s ^^^ sh.value).getLsbD 31)
        (decide (operand1 a.rn a.op2 s ^^^ sh.value = 0#32)) sh.carry s.cpsr.v) ∧
    (∃ t v c o, exec (.cmp a) s = .next t ∧
      WritesFlagsOnly s t (v.getLsbD 31) (decide (v = 0#32)) c o ∧
      DifferenceOf (operand1 a.rn a.op2 s) sh.value false v c o) ∧
    (∃ t v c o, exec (.cmn a) s = .next t ∧
      WritesFlagsOnly s t (v.getLsbD 31) (decide (v = 0#32)) c o ∧
      SumOf (operand1 a.rn a.op2 s) sh.value false v c o)

/-- With Rd = 15 and S = 0 each of the twelve instructions jumps to its result and changes no flag and
no register (42_data_processing.md R153). -/
def Obligations.PcResultJumps : Prop :=
  ∀ e ∈ writingOps, ∀ (a : DpArgs) (s : State) (sh : Shifted), Passes a.cond s →
    OperandAllowed s a.rn a.rd a.op2 → RnAllowed s e a.rn →
    shifterOperand a.op2 s = .ok sh → a.rd = 15 → a.s = false →
    ∃ t, exec (e.instr a) s = .next t ∧ Completes s t ∧
      t.pc = e.result (operand1 a.rn a.op2 s) sh.value s.cpsr.c ∧
      t.cpsr = s.cpsr ∧ KeepsRegs s t ∧ KeepsSpsrs s t

/-- With Rd = 15 and S = 1 each of the twelve instructions returns from an exception: the pc takes the
result and the CPSR the SPSR of the mode, whole, and the next step is of the state T selects. In User
and System mode it traps, and an SPSR with no valid mode is a fault
(42_data_processing.md R152, 10_state.md R32). -/
def Obligations.ReturnRestoresCpsr : Prop :=
  ∀ e ∈ writingOps, ∀ (a : DpArgs) (s : State) (sh : Shifted), Passes a.cond s →
    OperandAllowed s a.rn a.rd a.op2 → RnAllowed s e a.rn →
    shifterOperand a.op2 s = .ok sh → a.rd = 15 → a.s = true →
    (∀ m : ExcMode, s.cpsr.mode = m.mode →
      Mode.ofBits ((s.spsrs.read m).extractLsb' 0 5) ≠ none →
      ∃ t, exec (e.instr a) s = .next t ∧ Completes s t ∧
        t.pc = e.result (operand1 a.rn a.op2 s) sh.value s.cpsr.c ∧
        t.cpsr.toWord = s.spsrs.read m ∧ KeepsRegs s t ∧ KeepsSpsrs s t ∧
        (t.run = .running → boundaryInterrupt t = none →
          (t.cpsr.t = true → step t = .refused .thumbState) ∧
          (t.cpsr.t = false → t.pc.toNat % 4 ≠ 0 →
            step t = .fault (.unpredictable .misalignedPC)))) ∧
    (∀ m : ExcMode, s.cpsr.mode = m.mode →
      Mode.ofBits ((s.spsrs.read m).extractLsb' 0 5) = none →
      exec (e.instr a) s = .fault (.unpredictable .invalidMode)) ∧
    (s.cpsr.mode = .usr ∨ s.cpsr.mode = .sys →
      TrapsUndefined s (exec (e.instr a) s) .returnWithoutSpsr)

/-- A register-specified shift by r15 traps, in all sixteen instructions
(41_shifter.md R131, 42_data_processing.md R150). -/
def Obligations.ShiftAmountFromPcTraps : Prop :=
  (∀ e ∈ writingOps, ∀ (a : DpArgs) (s : State) (rm : Reg) (ty : ShiftType), Passes a.cond s →
    a.op2 = .shiftReg rm ty 15 → OperandAllowed s a.rn a.rd a.op2 → RnAllowed s e a.rn →
    TrapsUndefined s (exec (e.instr a) s) .pcOperandDisallowed) ∧
  ∀ f ∈ testOps, ∀ (a : TestArgs) (s : State) (rm : Reg) (ty : ShiftType), Passes a.cond s →
    a.op2 = .shiftReg rm ty 15 → OperandAllowed s a.rn a.rd a.op2 →
    (s.cfg.strict = true → a.rd = 0) →
    TrapsUndefined s (exec (f a) s) .pcOperandDisallowed

/-- Under STRICT_UNPREDICTABLE a nonzero SBZ field, and r15 as Rd, Rn or Rm beside a
register-specified shift, is a fault (30_encoding.md R105, 42_data_processing.md R177,
44_psr_transfer.md R213). The place of the MUL check among the others is the model's (log 18). -/
def Obligations.StrictFaults : Prop :=
  ∀ s : State, s.cfg.strict = true →
    (∀ e ∈ writingOps, ∀ a : DpArgs, Passes a.cond s → e.readsRn = false → a.rn ≠ 0 →
      exec (e.instr a) s = .fault (.unpredictable .shouldBeZero)) ∧
    (∀ f ∈ testOps, ∀ a : TestArgs, Passes a.cond s → a.rd ≠ 0 →
      exec (f a) s = .fault (.unpredictable .shouldBeZero)) ∧
    (∀ e ∈ writingOps, ∀ (a : DpArgs) (rm rs : Reg) (ty : ShiftType), Passes a.cond s →
      (e.readsRn = false → a.rn = 0) → a.op2 = .shiftReg rm ty rs →
      (a.rd = 15 ∨ a.rn = 15 ∨ rm = 15) →
      exec (e.instr a) s = .fault (.unpredictable .pcInRegisterShift)) ∧
    (∀ f ∈ testOps, ∀ (a : TestArgs) (rm rs : Reg) (ty : ShiftType), Passes a.cond s →
      a.rd = 0 → a.op2 = .shiftReg rm ty rs → (a.rn = 15 ∨ rm = 15) →
      exec (f a) s = .fault (.unpredictable .pcInRegisterShift)) ∧
    (∀ a : MulArgs, Passes a.cond s → a.rn ≠ 0 →
      exec (.mul a) s = .fault (.unpredictable .shouldBeZero)) ∧
    (∀ a : MsrRegArgs, Passes a.cond s → a.sbz ≠ 0#8 →
      exec (.msrReg a) s = .fault (.unpredictable .shouldBeZero))

/-! Multiply. -/

/-- MUL and MLA complete with the product, and the accumulated product, modulo 2^32; with S they write
N and Z and leave C and V (43_multiply.md R191, R192, R197, R198). -/
def Obligations.MultiplyResults : Prop :=
  ∀ (a : MulArgs) (s : State), Passes a.cond s →
    (MultiplyAllowed s false a →
      ∃ t v, exec (.mul a) s = .next t ∧
        v.toNat = (s.reg a.rm).toNat * (s.reg a.rs).toNat % 2 ^ 32 ∧
        WritesResult s t a.s a.rd v s.cpsr.c s.cpsr.v) ∧
    (MultiplyAllowed s true a →
      ∃ t v, exec (.mla a) s = .next t ∧
        v.toNat = ((s.reg a.rm).toNat * (s.reg a.rs).toNat + (s.reg a.rn).toNat) % 2 ^ 32 ∧
        WritesResult s t a.s a.rd v s.cpsr.c s.cpsr.v)

/-- The four long multiplies complete with the exact unsigned or signed product, or that product plus
the old RdHi:RdLo modulo 2^64 (43_multiply.md R193 to R198). -/
def Obligations.MultiplyLongResults : Prop :=
  ∀ (a : MullArgs) (s : State), Passes a.cond s → MultiplyLongAllowed a →
    (∃ t p, exec (.umull a) s = .next t ∧ WritesLong s t a p ∧
      p.toNat = (s.reg a.rm).toNat * (s.reg a.rs).toNat) ∧
    (∃ t p, exec (.umlal a) s = .next t ∧ WritesLong s t a p ∧
      p.toNat = ((s.reg a.rm).toNat * (s.reg a.rs).toNat +
        ((s.reg a.rdHi).toNat * 2 ^ 32 + (s.reg a.rdLo).toNat)) % 2 ^ 64) ∧
    (∃ t p, exec (.smull a) s = .next t ∧ WritesLong s t a p ∧
      p.toInt = (s.reg a.rm).toInt * (s.reg a.rs).toInt) ∧
    (∃ t p, exec (.smlal a) s = .next t ∧ WritesLong s t a p ∧
      (p.toNat : Int) = ((s.reg a.rm).toInt * (s.reg a.rs).toInt +
        ((s.reg a.rdHi).toNat * 2 ^ 32 + (s.reg a.rdLo).toNat)) % 2 ^ 64)

/-- The register restrictions of the multiplies, in their order (43_multiply.md R190). That the SBZ
check of MUL under STRICT_UNPREDICTABLE comes first is the model's (log 18). -/
def Obligations.MultiplyRestrictionsTrap : Prop :=
  (∀ (a : MulArgs) (s : State), Passes a.cond s →
    ((s.cfg.strict = true → a.rn = 0) →
      ((a.rd = 15 ∨ a.rm = 15 ∨ a.rs = 15) →
        TrapsUndefined s (exec (.mul a) s) .pcOperandDisallowed) ∧
      (¬(a.rd = 15 ∨ a.rm = 15 ∨ a.rs = 15) → a.rd = a.rm →
        TrapsUndefined s (exec (.mul a) s) .multiplyRegisterConflict)) ∧
    ((a.rd = 15 ∨ a.rm = 15 ∨ a.rs = 15 ∨ a.rn = 15) →
      TrapsUndefined s (exec (.mla a) s) .pcOperandDisallowed) ∧
    (¬(a.rd = 15 ∨ a.rm = 15 ∨ a.rs = 15 ∨ a.rn = 15) → a.rd = a.rm →
      TrapsUndefined s (exec (.mla a) s) .multiplyRegisterConflict)) ∧
  ∀ f ∈ [Instr.umull, .umlal, .smull, .smlal], ∀ (a : MullArgs) (s : State), Passes a.cond s →
    ((a.rdHi = 15 ∨ a.rdLo = 15 ∨ a.rm = 15 ∨ a.rs = 15) →
      TrapsUndefined s (exec (f a) s) .pcOperandDisallowed) ∧
    (¬(a.rdHi = 15 ∨ a.rdLo = 15 ∨ a.rm = 15 ∨ a.rs = 15) →
      (a.rdHi = a.rdLo ∨ a.rm = a.rdHi ∨ a.rm = a.rdLo) →
      TrapsUndefined s (exec (f a) s) .multiplyRegisterConflict)

/-! PSR transfer. -/

/-- MRS gives Rd all 32 bits of the CPSR, or of the SPSR of the mode, and writes no flag and no PSR;
Rd = 15, and the SPSR in User and System mode, trap (44_psr_transfer.md R210, R211). -/
def Obligations.MrsReads : Prop :=
  ∀ (a : MrsArgs) (s : State), Passes a.cond s →
    (a.rd = 15 → TrapsUndefined s (exec (.mrs a) s) .pcOperandDisallowed) ∧
    (a.rd ≠ 15 → a.spsr = true → (s.cpsr.mode = .usr ∨ s.cpsr.mode = .sys) →
      TrapsUndefined s (exec (.mrs a) s) .noSpsr) ∧
    (a.rd ≠ 15 → a.spsr = false →
      ∃ t, exec (.mrs a) s = .next t ∧ Completes s t ∧ t.pc = s.pc + 4#32 ∧
        WritesReg s t a.rd s.cpsr.toWord ∧ t.cpsr = s.cpsr ∧ KeepsSpsrs s t) ∧
    (∀ m : ExcMode, a.rd ≠ 15 → a.spsr = true → s.cpsr.mode = m.mode →
      ∃ t, exec (.mrs a) s = .next t ∧ Completes s t ∧ t.pc = s.pc + 4#32 ∧
        WritesReg s t a.rd (s.spsrs.read m) ∧ t.cpsr = s.cpsr ∧ KeepsSpsrs s t)

/-- MSR to the CPSR completes in both forms: bits 31:28 with f, bits 7:0 with c, every other bit
unchanged (44_psr_transfer.md R212 to R216). -/
def Obligations.MsrWritesCpsr : Prop :=
  (∀ (a : MsrRegArgs) (s : State), Passes a.cond s → a.spsr = false →
    (s.cfg.strict = true → a.sbz = 0#8) →
    (a.c = true → s.cpsr.mode ≠ .usr ∧ Mode.ofBits ((s.reg a.rm).extractLsb' 0 5) ≠ none ∧
      (s.cfg.strict = true → (s.reg a.rm).getLsbD 5 = s.cpsr.t)) →
    ∃ t, exec (.msrReg a) s = .next t ∧ WritesCpsr s t a.f a.c (s.reg a.rm)) ∧
  ∀ (a : MsrImmArgs) (s : State), Passes a.cond s → a.spsr = false → a.c = false →
    ∃ t, exec (.msrImm a) s = .next t ∧
      WritesCpsr s t a.f false (immOperand a.rotate a.imm8 s.cpsr.c).value

/-- MSR to the SPSR completes in both forms in every exception mode; the M field written is not
checked (44_psr_transfer.md R212 to R216, 10_state.md R32, R37). -/
def Obligations.MsrWritesSpsr : Prop :=
  (∀ (a : MsrRegArgs) (s : State) (m : ExcMode), Passes a.cond s → a.spsr = true →
    s.cpsr.mode = m.mode → (s.cfg.strict = true → a.sbz = 0#8) →
    ∃ t, exec (.msrReg a) s = .next t ∧ WritesSpsr s t m a.f a.c (s.reg a.rm)) ∧
  ∀ (a : MsrImmArgs) (s : State) (m : ExcMode), Passes a.cond s → a.spsr = true → a.c = false →
    s.cpsr.mode = m.mode →
    ∃ t, exec (.msrImm a) s = .next t ∧
      WritesSpsr s t m a.f false (immOperand a.rotate a.imm8 s.cpsr.c).value

/-- The permission checks of MSR, in their order (44_psr_transfer.md R213). -/
def Obligations.MsrChecksTrap : Prop :=
  (∀ (a : MsrImmArgs) (s : State), Passes a.cond s →
    (a.c = true → TrapsUndefined s (exec (.msrImm a) s) .msrImmediateControl) ∧
    (a.c = false → a.spsr = true → (s.cpsr.mode = .usr ∨ s.cpsr.mode = .sys) →
      TrapsUndefined s (exec (.msrImm a) s) .noSpsr)) ∧
  ∀ (a : MsrRegArgs) (s : State), Passes a.cond s → (s.cfg.strict = true → a.sbz = 0#8) →
    (a.spsr = true → (s.cpsr.mode = .usr ∨ s.cpsr.mode = .sys) →
      TrapsUndefined s (exec (.msrReg a) s) .noSpsr) ∧
    (a.spsr = false → a.c = true → s.cpsr.mode = .usr →
      TrapsUndefined s (exec (.msrReg a) s) .msrUserControl)

/-- An MSR control write of an invalid mode to the CPSR is a fault, and so is one that changes T
under STRICT_UNPREDICTABLE (44_psr_transfer.md R214, 10_state.md R32). -/
def Obligations.MsrFaults : Prop :=
  ∀ (a : MsrRegArgs) (s : State), Passes a.cond s → (s.cfg.strict = true → a.sbz = 0#8) →
    a.spsr = false → a.c = true → s.cpsr.mode ≠ .usr →
    (Mode.ofBits ((s.reg a.rm).extractLsb' 0 5) = none →
      exec (.msrReg a) s = .fault (.unpredictable .invalidMode)) ∧
    (Mode.ofBits ((s.reg a.rm).extractLsb' 0 5) ≠ none → s.cfg.strict = true →
      (s.reg a.rm).getLsbD 5 ≠ s.cpsr.t →
      exec (.msrReg a) s = .fault (.unpredictable .tBitWrite))

/-! Branches. -/

/-- B and BL jump to `pc + 8` plus four times the signed field, modulo 2^32, and BL leaves `pc + 4` in
r14 of the current mode; from an aligned pc the target is aligned
(45_branch.md R230, R231, R234). -/
def Obligations.BranchTargets : Prop :=
  ∀ (a : BranchArgs) (s : State), Passes a.cond s →
    (∃ t, exec (.b a) s = .next t ∧ Completes s t ∧
      (t.pc.toNat : Int) = ((s.pc.toNat : Int) + 8 + 4 * a.imm24.toInt) % 2 ^ 32 ∧
      KeepsRegs s t ∧ t.cpsr = s.cpsr ∧ KeepsSpsrs s t ∧
      (s.pc.toNat % 4 = 0 → t.pc.toNat % 4 = 0)) ∧
    (∃ t, exec (.bl a) s = .next t ∧ Completes s t ∧
      (t.pc.toNat : Int) = ((s.pc.toNat : Int) + 8 + 4 * a.imm24.toInt) % 2 ^ 32 ∧
      WritesReg s t 14 (s.pc + 4#32) ∧ t.cpsr = s.cpsr ∧ KeepsSpsrs s t ∧
      (s.pc.toNat % 4 = 0 → t.pc.toNat % 4 = 0))

/-- BX jumps to Rn with bit 0 cleared and puts bit 0 into T; r15 reads `pc + 8`
(45_branch.md R233). -/
def Obligations.BranchExchange : Prop :=
  ∀ (a : BxArgs) (s : State), Passes a.cond s →
    ∃ t, exec (.bx a) s = .next t ∧ Completes s t ∧
      t.pc.toNat = 2 * ((s.reg a.rn).toNat / 2) ∧
      t.cpsr = { s.cpsr with t := decide ((s.reg a.rn).toNat % 2 = 1) } ∧
      KeepsRegs s t ∧ KeepsSpsrs s t

/-! The classes that trap and the classes that stop. -/

/-- SWI takes the software interrupt, with its comment in the outcome only
(46_dispatch.md R246, 60_exceptions.md R262, R269, R270). -/
def Obligations.SoftwareInterruptTraps : Prop :=
  ∀ (a : SwiArgs) (s : State), Passes a.cond s →
    Traps s (exec (.swi a) s) .svc 0x08#32 (.softwareInterrupt a.comment) (some s.ir)

/-- The Undefined class, the coprocessor classes and a test opcode with S = 0 take the
undefined-instruction trap (46_dispatch.md R247, R248, 42_data_processing.md R154). -/
def Obligations.UndefinedClassesTrap : Prop :=
  ∀ s : State,
    (∀ a : UndefArgs, Passes a.cond s → TrapsUndefined s (exec (.undef a) s) .undefinedClass) ∧
    (∀ a : CdtArgs, Passes a.cond s →
      TrapsUndefined s (exec (.stc a) s) .noCoprocessor ∧
      TrapsUndefined s (exec (.ldc a) s) .noCoprocessor) ∧
    (∀ a : CdpArgs, Passes a.cond s → TrapsUndefined s (exec (.cdp a) s) .noCoprocessor) ∧
    (∀ a : CrtArgs, Passes a.cond s →
      TrapsUndefined s (exec (.mcr a) s) .noCoprocessor ∧
      TrapsUndefined s (exec (.mrc a) s) .noCoprocessor) ∧
    (∀ a : BadTestArgs, Passes a.cond s →
      TrapsUndefined s (exec (.badTest a) s) .malformedTestOp)

/-- The spec refuses a condition-passed word of every memory class, by its class
(46_dispatch.md R249, 20_memory.md R65). -/
def Obligations.MemoryClassesRefused : Prop :=
  ∀ s : State,
    (∀ f ∈ [Instr.swp, .swpb], ∀ a, Passes a.cond s →
      exec (f a) s = .refused (.memoryClass .singleDataSwap)) ∧
    (∀ f ∈ [Instr.strhReg, .ldrhReg, .ldrsbReg, .ldrshReg], ∀ a, Passes a.cond s →
      exec (f a) s = .refused (.memoryClass .halfwordTransferRegister)) ∧
    (∀ a : HdtRegOtherArgs, Passes a.cond s →
      exec (.hdtRegOther a) s = .refused (.memoryClass .halfwordTransferRegister)) ∧
    (∀ f ∈ [Instr.strhImm, .ldrhImm, .ldrsbImm, .ldrshImm], ∀ a, Passes a.cond s →
      exec (f a) s = .refused (.memoryClass .halfwordTransferImmediate)) ∧
    (∀ a : HdtImmOtherArgs, Passes a.cond s →
      exec (.hdtImmOther a) s = .refused (.memoryClass .halfwordTransferImmediate)) ∧
    (∀ f ∈ [Instr.str, .ldr, .strb, .ldrb], ∀ a, Passes a.cond s →
      exec (f a) s = .refused (.memoryClass .singleDataTransfer)) ∧
    (∀ f ∈ [Instr.stm, .ldm], ∀ a, Passes a.cond s →
      exec (f a) s = .refused (.memoryClass .blockDataTransfer))

/-- A condition-passed word of the extension space is a fault, whatever the other bits and the state
(42_data_processing.md R176, 60_exceptions.md R265). -/
def Obligations.ExtensionSpaceFaults : Prop :=
  ∀ (a : ExtArgs) (s : State), Passes a.cond s →
    exec (.extension a) s = .fault (.unpredictable .extensionSpace)

/-! Exceptions. -/

/-- The exception table, as the host's request enters it with a return pc; every row but Reset
(60_exceptions.md R269, R270, R276). -/
def Obligations.ExceptionEntry : Prop :=
  ∀ (s : State) (pc : Word), s.phase = .fetch →
    (∃ t, hostRequest (.enter .undef pc) s = .next t ∧
      Entered s t .und 0x04#32 (pc + 4#32) false) ∧
    (∃ t, hostRequest (.enter .swi pc) s = .next t ∧
      Entered s t .svc 0x08#32 (pc + 4#32) false) ∧
    (∃ t, hostRequest (.enter .prefetchAbort pc) s = .next t ∧
      Entered s t .abt 0x0C#32 (pc + 4#32) false) ∧
    (∃ t, hostRequest (.enter .dataAbort pc) s = .next t ∧
      Entered s t .abt 0x10#32 (pc + 8#32) false) ∧
    (∃ t, hostRequest (.enter .irq pc) s = .next t ∧
      Entered s t .irq 0x18#32 (pc + 4#32) false) ∧
    (∃ t, hostRequest (.enter .fiq pc) s = .next t ∧
      Entered s t .fiq 0x1C#32 (pc + 4#32) true)

/-- The return words resume where the trap or the interrupt was taken, in any handler state whose mode
still holds the link value and the saved CPSR: `MOVS pc, lr` after a trap by an instruction,
`SUBS pc, lr, #4` after a prefetch abort or an interrupt. The CPSR of before is back, whole
(60_exceptions.md R274, R269, R270). -/
def Obligations.TrapReturnResumes : Prop :=
  ∀ (s u : State) (i : Instr),
    (∀ k ∈ [ExcKind.undef, .swi], decodeWord 0xE1B0F00E#32 = .ok i →
      u.cpsr.mode = k.target.mode →
      u.regs.read (.lr k.target.bank) =
        (enterException k s.pc s).regs.read (.lr k.target.bank) →
      u.spsrs.read k.target = (enterException k s.pc s).spsrs.read k.target →
      ∃ t, exec i u = .next t ∧ t.pc = s.pc + 4#32 ∧ t.cpsr = s.cpsr ∧ Completes u t ∧
        KeepsRegs u t ∧ KeepsSpsrs u t) ∧
    (∀ k ∈ [ExcKind.prefetchAbort, .irq, .fiq], decodeWord 0xE25EF004#32 = .ok i →
      u.cpsr.mode = k.target.mode →
      u.regs.read (.lr k.target.bank) =
        (enterException k s.pc s).regs.read (.lr k.target.bank) →
      u.spsrs.read k.target = (enterException k s.pc s).spsrs.read k.target →
      ∃ t, exec i u = .next t ∧ t.pc = s.pc ∧ t.cpsr = s.cpsr ∧ Completes u t ∧
        KeepsRegs u t ∧ KeepsSpsrs u t)

/-- The SPSR of the current mode: each exception mode has its own, User and System have none
(10_state.md R36). -/
def Obligations.SpsrGate : Prop :=
  ∀ s : State,
    (s.cpsr.mode = .fiq → s.spsr? = some s.spsrs.fiq) ∧
    (s.cpsr.mode = .irq → s.spsr? = some s.spsrs.irq) ∧
    (s.cpsr.mode = .svc → s.spsr? = some s.spsrs.svc) ∧
    (s.cpsr.mode = .abt → s.spsr? = some s.spsrs.abt) ∧
    (s.cpsr.mode = .und → s.spsr? = some s.spsrs.und) ∧
    (s.cpsr.mode = .usr ∨ s.cpsr.mode = .sys →
      s.spsr? = none ∧
      (∀ a : MrsArgs, Passes a.cond s → a.rd ≠ 15 → a.spsr = true →
        TrapsUndefined s (exec (.mrs a) s) .noSpsr) ∧
      (∀ a : MsrRegArgs, Passes a.cond s → a.spsr = true → (s.cfg.strict = true → a.sbz = 0#8) →
        TrapsUndefined s (exec (.msrReg a) s) .noSpsr) ∧
      (∀ a : MsrImmArgs, Passes a.cond s → a.spsr = true → a.c = false →
        TrapsUndefined s (exec (.msrImm a) s) .noSpsr) ∧
      ∀ e ∈ writingOps, ∀ (a : DpArgs) (sh : Shifted), Passes a.cond s →
        OperandAllowed s a.rn a.rd a.op2 → RnAllowed s e a.rn →
        shifterOperand a.op2 s = .ok sh → a.rd = 15 → a.s = true →
        TrapsUndefined s (exec (e.instr a) s) .returnWithoutSpsr)

/-- The layout of a PSR word, the seven mode numbers, and the agreement of the word view and the field
view, for every word whose M is a valid mode (10_state.md R22, R30, R31). -/
def Obligations.PsrViewsAgree : Prop :=
  (∀ p : Psr,
    p.toWord.getLsbD 31 = p.n ∧ p.toWord.getLsbD 30 = p.z ∧ p.toWord.getLsbD 29 = p.c ∧
    p.toWord.getLsbD 28 = p.v ∧ p.toWord.extractLsb' 8 20 = p.reserved ∧
    p.toWord.getLsbD 7 = p.i ∧ p.toWord.getLsbD 6 = p.f ∧ p.toWord.getLsbD 5 = p.t ∧
    p.toWord.extractLsb' 0 5 = p.mode.bits) ∧
  (Mode.bits .usr = 0b10000#5 ∧ Mode.bits .fiq = 0b10001#5 ∧ Mode.bits .irq = 0b10010#5 ∧
    Mode.bits .svc = 0b10011#5 ∧ Mode.bits .abt = 0b10111#5 ∧ Mode.bits .und = 0b11011#5 ∧
    Mode.bits .sys = 0b11111#5) ∧
  (∀ (b : BitVec 5) (m : Mode), Mode.ofBits b = some m ↔ b = m.bits) ∧
  (∀ p : Psr, Psr.ofWord? p.toWord = some p) ∧
  (∀ (w : Word) (p : Psr), Psr.ofWord? w = some p → p.toWord = w) ∧
  (∀ w : Word, Mode.ofBits (w.extractLsb' 0 5) ≠ none → ∃ p, Psr.ofWord? w = some p)

/-- The reserved bits 27:8 change only when a whole PSR word is copied: the CPSR's from the SPSR of
the mode, an SPSR's from the CPSR (10_state.md R31). -/
def Obligations.ReservedBitsOnlyCopied : Prop :=
  ∀ s t : State, step s = .next t →
    (t.cpsr.reserved = s.cpsr.reserved ∨ s.spsr? = some t.cpsr.toWord) ∧
    ∀ m : ExcMode,
      (t.spsrs.read m).extractLsb' 8 20 = (s.spsrs.read m).extractLsb' 8 20 ∨
        t.spsrs.read m = s.cpsr.toWord

/-! Reset. -/

/-- What the reset request leaves, for every value of the parameters; the values of the flags, the
registers and the SPSRs are those of the parameters (70_reset_and_hazards.md R290, 10_state.md R40). -/
def Obligations.ResetValues : Prop :=
  ∀ s : State, s.phase = .fetch →
    ∃ t, hostRequest .reset s = .next t ∧
      t.pc = s.cfg.vectorBase ∧ t.cpsr.mode = .svc ∧ t.cpsr.i = true ∧ t.cpsr.f = true ∧
      t.cpsr.t = false ∧ t.cpsr.reserved = 0#20 ∧
      t.cpsr.n = s.cfg.resetFlags.n ∧ t.cpsr.z = s.cfg.resetFlags.z ∧
      t.cpsr.c = s.cfg.resetFlags.c ∧ t.cpsr.v = s.cfg.resetFlags.v ∧
      (∀ p, t.regs.read p = s.cfg.resetGpr.read p) ∧
      (∀ m, t.spsrs.read m = s.cfg.resetSpsr.read m) ∧
      t.phase = .fetch ∧ t.pcWritten = false ∧ t.run = .running ∧
      t.cfg = s.cfg ∧ t.mem = s.mem ∧ t.irqReq = s.irqReq ∧ t.fiqReq = s.fiqReq

/-- The reset state satisfies the invariant, under every configuration the spec allows and every
canonical memory, and State.reset does (10_state.md R38, R40, 46_dispatch.md R243). -/
def Obligations.ResetSatisfiesInvariant : Prop :=
  State.reset.Inv ∧
  ∀ (cfg : Config) (mem : Memory) (irq fiq : Bool), ConfigOk cfg → mem.wf →
    (State.afterReset cfg mem irq fiq).Inv

/-! What holds of every step. -/

/-- Every step keeps the invariant of the states between two steps: the memory is canonical, the
phase is Fetch, no PC write is pending, the parameters are allowed (46_dispatch.md R243, R244). -/
def Obligations.StepKeepsInvariant : Prop :=
  ∀ s t : State, s.Inv → step s = .next t → t.Inv

/-- No step changes a byte of memory, a parameter or an interrupt level. That no instruction stores is
the spec's (20_memory.md R64, 70_reset_and_hazards.md R298). That the fetch of the step changes nothing
behind `Fetch` (log 19), that a step leaves the levels to the host's SetRequest (log 12), and that the
parameters stay (log 1), is the model's. -/
def Obligations.StepChangesNoMemory : Prop :=
  ∀ s t : State, step s = .next t →
    t.mem = s.mem ∧ t.cfg = s.cfg ∧ t.irqReq = s.irqReq ∧ t.fiqReq = s.fiqReq

/-- A step that ends in a fault or a refusal commits nothing: the state after it is the state before
it but for the run mark and the record (46_dispatch.md R244, 60_exceptions.md R267). -/
def Obligations.StopCommitsNothing : Prop :=
  ∀ s : State,
    (∀ f, step s = .fault f → ∃ r, s.afterStep = { s with run := .faulted f, report := some r } ∧
      r.pc = s.pc ∧ r.outcome = f.outcome) ∧
    (∀ q, step s = .refused q → ∃ r, s.afterStep = { s with run := .refused q, report := some r } ∧
      r.pc = s.pc ∧ r.outcome = .refused q) ∧
    (∀ t, step s = .next t → s.afterStep = t)

/-- From User mode a step stays in User mode and touches no mask, no reserved bit, no SPSR and no
register of another bank, or it enters one of the five exceptions
(60_exceptions.md R277, R278, R269). -/
def Obligations.UserModeLeftByExceptionOnly : Prop :=
  ∀ s t : State, s.cpsr.mode = .usr → step s = .next t →
    (t.cpsr.mode = .usr ∧ t.cpsr.i = s.cpsr.i ∧ t.cpsr.f = s.cpsr.f ∧
      t.cpsr.reserved = s.cpsr.reserved ∧ KeepsSpsrs s t ∧
      ∀ p : PhysReg, (∀ i : Reg, phys s.cfg.fiqBanks .usr i ≠ some p) →
        t.regs.read p = s.regs.read p) ∨
    ∃ m offset w,
      (m, offset) ∈ [(ExcMode.und, 0x04#32), (.svc, 0x08#32), (.abt, 0x0C#32), (.irq, 0x18#32),
        (.fiq, 0x1C#32)] ∧
      Entered { s with ir := w } t m offset (s.pc + 4#32) (decide (m = .fiq))

/-- What User mode cannot name cannot reach it: two User-mode states that differ at most in the other
banks and the SPSRs take steps with the same outcome, and the next states again differ at most there,
until both enter the same exception with the same return address and the same saved CPSR
(10_state.md R24, R36, 60_exceptions.md R277). -/
def Obligations.UserModeIsolation : Prop :=
  ∀ s t : State, UserAgree s t →
    (∀ f, step s = .fault f ↔ step t = .fault f) ∧
    (∀ r, step s = .refused r ↔ step t = .refused r) ∧
    ∀ s', step s = .next s' → ∃ t', step t = .next t' ∧
      (UserAgree s' t' ∨
        ∃ m : ExcMode, s'.cpsr.mode = m.mode ∧ s'.cpsr = t'.cpsr ∧ s'.pc = t'.pc ∧
          s'.spsrs.read m = t'.spsrs.read m ∧
          s'.regs.read (.lr m.bank) = t'.regs.read (.lr m.bank) ∧
          s'.report = t'.report ∧ s'.run = t'.run ∧ s'.mem = t'.mem ∧
          ∀ (i : Reg) (p : PhysReg), phys s.cfg.fiqBanks .usr i = some p →
            s'.regs.read p = t'.regs.read p)

/-! The host. -/

/-- The host's requests between two steps: Stop and Resume, the levels, Snapshot, Enter, and the marks
of a fault or a refusal, which no request but Reset clears (60_exceptions.md R276,
70_reset_and_hazards.md R291). That a request inside a step, and a Resume of a running core, are
refused by name (log 14), and that Stop keeps the marks (log 13), is the model's. -/
def Obligations.HostRequests : Prop :=
  ∀ s : State,
    (s.phase = .fetch →
      (s.run = .running → hostRequest .stop s = .next { s with run := .stopped }) ∧
      (s.run = .stopped → hostRequest .resume s = .next { s with run := .running }) ∧
      (s.run = .running → hostRequest .resume s = .refused .resumeNotStopped) ∧
      (∀ f, s.run = .faulted f →
        hostRequest .resume s = .refused .resumeNotStopped ∧ hostRequest .stop s = .next s) ∧
      (∀ r, s.run = .refused r →
        hostRequest .resume s = .refused .resumeNotStopped ∧ hostRequest .stop s = .next s) ∧
      hostRequest .snapshot s = .next s ∧
      (∀ irq fiq, hostRequest (.setRequest irq fiq) s =
        .next { s with irqReq := irq, fiqReq := fiq }) ∧
      (∀ k pc, ∃ t, hostRequest (.enter k pc) s = .next t ∧ t.run = s.run) ∧
      (∃ t, hostRequest .reset s = .next t ∧ t.run = .running) ∧
      (∀ q t, q ≠ .reset → hostRequest q s = .next t →
        (∀ f, s.run = .faulted f → t.run = .faulted f) ∧
        (∀ r, s.run = .refused r → t.run = .refused r))) ∧
    (s.phase = .decodeExecute → ∀ q, hostRequest q s = .refused .notAtBoundary)

/-- A core that is not running takes no step, however often the loop is asked: its state stays. The
model's reading of the end of the loop (46_dispatch.md R245, log 9). -/
def Obligations.StoppedCoreStays : Prop :=
  ∀ s : State, s.run ≠ .running → step s = .next s ∧ ∀ n, State.loop n s = s
end

