-- ==== Sys2Proof/Laws/Decode.lean ====
section
/-! SUPPORT. Field codes invert, and a mask test on a word built from fields splits into tests on the
fields. -/

set_option Elab.async false

namespace Sys2Proof

@[simp] theorem Reg.ofBits_bits (r : Reg) : Reg.ofBits (Reg.bits r) = r := by
  revert r; decide

@[simp] theorem Reg.bits_ofBits (b : BitVec 4) : Reg.bits (Reg.ofBits b) = b := by
  revert b; decide

@[simp] theorem Cond.ofBits_bits (c : Cond) : Cond.ofBits c.bits = c := by
  cases c <;> rfl

@[simp] theorem Cond.bits_ofBits (b : BitVec 4) : (Cond.ofBits b).bits = b := by
  revert b; decide

@[simp] theorem ShiftType.ofBits_bits (t : ShiftType) : ShiftType.ofBits t.bits = t := by
  cases t <;> rfl

@[simp] theorem ShiftType.bits_ofBits (b : BitVec 2) : (ShiftType.ofBits b).bits = b := by
  revert b; decide

@[simp] theorem TestOp.ofBits_bits (t : TestOp) : TestOp.ofBits t.bits = t := by
  cases t <;> rfl

@[simp] theorem TestOp.bits_ofBits (b : BitVec 2) : (TestOp.ofBits b).bits = b := by
  revert b; decide

/-- A mask test: `(x AND mask) == value`. -/
def maskTest {w : Nat} (x mask value : BitVec w) : Bool := x &&& mask == value

theorem Row.matchesWord_eq (r : Row) (w : Word) :
    r.matchesWord w = maskTest w r.mask r.pattern := rfl

/-- A mask test on two fields is a mask test on each. -/
theorem maskTest_append {n k : Nat} (x : BitVec n) (y : BitVec k) (mask value : BitVec (n + k)) :
    maskTest (x ++ y) mask value =
      (maskTest x (mask.extractLsb' k n) (value.extractLsb' k n) &&
        maskTest y (mask.extractLsb' 0 k) (value.extractLsb' 0 k)) := by
  unfold maskTest
  rw [Bool.eq_iff_iff]
  simp only [beq_iff_eq, Bool.and_eq_true, BitVec.eq_of_getLsbD_eq_iff, BitVec.getLsbD_append,
    BitVec.getLsbD_and, BitVec.getLsbD_extractLsb']
  constructor
  · intro h
    constructor
    · intro i hi
      have := h (k + i) (by omega)
      rw [if_neg (by omega), show k + i - k = i by omega] at this
      rw [decide_eq_true hi, Bool.true_and, Bool.true_and, this]
    · intro i hi
      have := h i (by omega)
      rw [if_pos hi] at this
      rw [decide_eq_true hi, Bool.true_and, Bool.true_and, Nat.zero_add, this]
  · rintro ⟨h1, h2⟩ i hi
    by_cases hk : i < k
    · have := h2 i hk
      rw [decide_eq_true hk, Bool.true_and, Bool.true_and, Nat.zero_add] at this
      rw [if_pos hk, this]
    · have hn : i - k < n := by omega
      have := h1 (i - k) hn
      rw [decide_eq_true hn, Bool.true_and, Bool.true_and, show k + (i - k) = i by omega] at this
      rw [if_neg hk, this]

/-- A mask test that fixes no bit holds. -/
@[simp] theorem maskTest_zero {w : Nat} (x : BitVec w) : maskTest x 0#w 0#w = true := by
  simp [maskTest]

@[simp] theorem maskTest_flag_one (b : Bool) : maskTest (flag b) 1#1 1#1 = b := by
  cases b <;> rfl

@[simp] theorem maskTest_flag_zero (b : Bool) : maskTest (flag b) 1#1 0#1 = !b := by
  cases b <;> rfl

/-- A mask test on a word says what each masked bit is. -/
theorem maskTest_iff_bits {w : Nat} (x mask value : BitVec w) :
    maskTest x mask value = true ↔
      ∀ i < w, (x.getLsbD i && mask.getLsbD i) = value.getLsbD i := by
  unfold maskTest
  rw [beq_iff_eq]
  constructor
  · intro h i _
    rw [← h, BitVec.getLsbD_and]
  · intro h
    apply BitVec.eq_of_getLsbD_eq
    intro i hi
    rw [BitVec.getLsbD_and, h i hi]

/-- The first matching row, as mask tests. -/
theorem rowOf_eq_find (w : Word) :
    rowOf w = opcodeTable.find? fun r => maskTest w r.mask r.pattern := rfl

/-! Where a field, or a bit, of two joined fields lies. -/

theorem field_upper {n k : Nat} (x : BitVec n) (y : BitVec k) {lo len : Nat} (h : k ≤ lo) :
    (x ++ y).extractLsb' lo len = x.extractLsb' (lo - k) len :=
  BitVec.extractLsb'_append_eq_of_le h

theorem field_lower {n k : Nat} (x : BitVec n) (y : BitVec k) {lo len : Nat} (h : lo + len ≤ k) :
    (x ++ y).extractLsb' lo len = y.extractLsb' lo len :=
  BitVec.extractLsb'_append_eq_of_add_le h

theorem field_whole {n : Nat} (x : BitVec n) (lo : Nat) (h : lo = 0) : x.extractLsb' lo n = x := by
  subst h; simp

theorem bit_upper {n k : Nat} (x : BitVec n) (y : BitVec k) {i : Nat} (h : k ≤ i) :
    (x ++ y).getLsbD i = x.getLsbD (i - k) := by
  rw [BitVec.getLsbD_append, if_neg (by omega)]

theorem bit_lower {n k : Nat} (x : BitVec n) (y : BitVec k) {i : Nat} (h : i < k) :
    (x ++ y).getLsbD i = y.getLsbD i := by
  rw [BitVec.getLsbD_append, if_pos h]

theorem flag_bit (b : Bool) (i : Nat) (h : i = 0) : (flag b).getLsbD i = b := by
  subst h; cases b <;> rfl

/-- A word is its fields: the condition, bits 27 to 20, Rn, Rd, bits 11:8, bits 7 to 4, bits 3:0. -/
theorem word_parts (w : Word) :
    ∃ (c : BitVec 4) (b27 b26 b25 b24 b23 b22 b21 b20 : Bool) (rn rd hi : BitVec 4)
      (b7 b6 b5 b4 : Bool) (lo : BitVec 4),
      w = c ++ flag b27 ++ flag b26 ++ flag b25 ++ flag b24 ++ flag b23 ++ flag b22 ++ flag b21 ++
        flag b20 ++ rn ++ rd ++ hi ++ flag b7 ++ flag b6 ++ flag b5 ++ flag b4 ++ lo := by
  refine ⟨w.extractLsb' 28 4, w.getLsbD 27, w.getLsbD 26, w.getLsbD 25, w.getLsbD 24,
    w.getLsbD 23, w.getLsbD 22, w.getLsbD 21, w.getLsbD 20, w.extractLsb' 16 4,
    w.extractLsb' 12 4, w.extractLsb' 8 4, w.getLsbD 7, w.getLsbD 6, w.getLsbD 5, w.getLsbD 4,
    w.extractLsb' 0 4, ?_⟩
  apply BitVec.eq_of_getLsbD_eq
  intro i hi
  interval_cases i <;>
    (simp (disch := decide) only [bit_upper, bit_lower]
     simp only [BitVec.getLsbD_extractLsb', flag_bit _ _ rfl] <;> simp)

/-- The decoder's answer in terms of the first matching row. -/
theorem decodeWord_of_rowOf {w : Word} {r : Row} (h : rowOf w = some r) :
    decodeWord w = .ok (r.build w) := by
  simp [decodeWord, h]

end Sys2Proof
end

