-- ==== Sys2Proof/Laws/Registers.lean ====
section
/-! SUPPORT. Read-over-write laws of the register file and the SPSRs, and the banking map. -/

set_option Elab.async false

namespace Sys2Proof.Machine

theorem PhysReg.index_injective {p q : PhysReg} (h : p.index = q.index) : p = q := by
  cases p <;> cases q <;> simp only [PhysReg.index, Fin.mk.injEq] at h
  case low.low i j => congr; omega
  case mid.mid i j => congr; omega
  case midFiq.midFiq i j => congr; omega
  case sp.sp b c => cases b <;> cases c <;> simp_all [Bank.index]
  case lr.lr b c => cases b <;> cases c <;> simp_all [Bank.index]
  all_goals omega

@[simp] theorem RegFile.read_write_same (f : RegFile) (p : PhysReg) (v : Word) :
    (f.write p v).read p = v := by
  simp [RegFile.read, RegFile.write]

theorem RegFile.read_write_other (f : RegFile) {p q : PhysReg} (v : Word) (h : p ≠ q) :
    (f.write p v).read q = f.read q := by
  have hi : p.index.val ≠ q.index.val := fun e => h (PhysReg.index_injective (Fin.ext e))
  simp [RegFile.read, RegFile.write, Vector.getElem_set_ne, hi]

theorem RegFile.read_write (f : RegFile) (p q : PhysReg) (v : Word) :
    (f.write p v).read q = if q = p then v else f.read q := by
  by_cases h : q = p
  · subst h; simp
  · rw [if_neg h, RegFile.read_write_other f v (fun e => h e.symm)]

@[simp] theorem SpsrFile.read_write_same (f : SpsrFile) (m : ExcMode) (w : Word) :
    (f.write m w).read m = w := by
  cases m <;> rfl

theorem SpsrFile.read_write (f : SpsrFile) (m n : ExcMode) (w : Word) :
    (f.write m w).read n = if n = m then w else f.read n := by
  cases m <;> cases n <;> rfl

/-- r15 is the program counter in every mode (10_state.md R24). -/
@[simp] theorem phys_fifteen (b : Bool) (m : Mode) : phys b m 15 = none := by
  cases b <;> cases m <;> rfl

/-- r14 is the link register of the mode's bank (10_state.md R24). -/
@[simp] theorem phys_fourteen (b : Bool) (m : Mode) : phys b m 14 = some (.lr m.bank) := by
  cases b <;> cases m <;> rfl

/-- r13 is the stack pointer of the mode's bank (10_state.md R24). -/
@[simp] theorem phys_thirteen (b : Bool) (m : Mode) : phys b m 13 = some (.sp m.bank) := by
  cases b <;> cases m <;> rfl

theorem phys_eq_none (b : Bool) (m : Mode) (i : Reg) : phys b m i = none ↔ i = 15 := by
  revert i; cases b <;> cases m <;> decide

/-- Every visible register but r15 names a physical register (10_state.md R24). -/
theorem phys_of_ne (b : Bool) (m : Mode) {i : Reg} (h : i ≠ 15) : ∃ p, phys b m i = some p :=
  Option.ne_none_iff_exists'.mp fun e => h ((phys_eq_none b m i).mp e)

/-- Within one mode two visible registers never share a physical register. -/
theorem phys_injective (b : Bool) (m : Mode) {i j : Reg} {p : PhysReg}
    (hi : phys b m i = some p) (hj : phys b m j = some p) : i = j := by
  revert i j p; cases b <;> cases m <;> decide +revert

end Sys2Proof.Machine
end

