-- ==== Sys2Proof/Laws/State.lean ====
section
/-! SUPPORT. One lemma per field per update of the state, so that no later proof unfolds a record
update. -/

set_option Elab.async false

namespace Sys2Proof.Machine

/-! State.commit. -/

@[simp] theorem State.commit_cfg (s : State) :
    s.commit.cfg = s.cfg := rfl

@[simp] theorem State.commit_regs (s : State) :
    s.commit.regs = s.regs := rfl

@[simp] theorem State.commit_pc (s : State) :
    s.commit.pc = s.nextPc := rfl

@[simp] theorem State.commit_cpsr (s : State) :
    s.commit.cpsr = s.cpsr := rfl

@[simp] theorem State.commit_spsrs (s : State) :
    s.commit.spsrs = s.spsrs := rfl

@[simp] theorem State.commit_mem (s : State) :
    s.commit.mem = s.mem := rfl

@[simp] theorem State.commit_phase (s : State) :
    s.commit.phase = .fetch := rfl

@[simp] theorem State.commit_ir (s : State) :
    s.commit.ir = s.ir := rfl

@[simp] theorem State.commit_pcNext (s : State) :
    s.commit.pcNext = s.pcNext := rfl

@[simp] theorem State.commit_pcWritten (s : State) :
    s.commit.pcWritten = false := rfl

@[simp] theorem State.commit_irqReq (s : State) :
    s.commit.irqReq = s.irqReq := rfl

@[simp] theorem State.commit_fiqReq (s : State) :
    s.commit.fiqReq = s.fiqReq := rfl

@[simp] theorem State.commit_run (s : State) :
    s.commit.run = s.run := rfl

@[simp] theorem State.commit_report (s : State) :
    s.commit.report = none := rfl

/-! State.skip. -/

@[simp] theorem State.skip_cfg (s : State) :
    s.skip.cfg = s.cfg := rfl

@[simp] theorem State.skip_regs (s : State) :
    s.skip.regs = s.regs := rfl

@[simp] theorem State.skip_pc (s : State) :
    s.skip.pc = s.pc + 4#32 := rfl

@[simp] theorem State.skip_cpsr (s : State) :
    s.skip.cpsr = s.cpsr := rfl

@[simp] theorem State.skip_spsrs (s : State) :
    s.skip.spsrs = s.spsrs := rfl

@[simp] theorem State.skip_mem (s : State) :
    s.skip.mem = s.mem := rfl

@[simp] theorem State.skip_phase (s : State) :
    s.skip.phase = .fetch := rfl

@[simp] theorem State.skip_ir (s : State) :
    s.skip.ir = s.ir := rfl

@[simp] theorem State.skip_pcNext (s : State) :
    s.skip.pcNext = s.pcNext := rfl

@[simp] theorem State.skip_pcWritten (s : State) :
    s.skip.pcWritten = false := rfl

@[simp] theorem State.skip_irqReq (s : State) :
    s.skip.irqReq = s.irqReq := rfl

@[simp] theorem State.skip_fiqReq (s : State) :
    s.skip.fiqReq = s.fiqReq := rfl

@[simp] theorem State.skip_run (s : State) :
    s.skip.run = s.run := rfl

@[simp] theorem State.skip_report (s : State) :
    s.skip.report = none := rfl

/-! State.fetched. -/

@[simp] theorem State.fetched_cfg (s : State) (w : Word) :
    (s.fetched w).cfg = s.cfg := rfl

@[simp] theorem State.fetched_regs (s : State) (w : Word) :
    (s.fetched w).regs = s.regs := rfl

@[simp] theorem State.fetched_pc (s : State) (w : Word) :
    (s.fetched w).pc = s.pc := rfl

@[simp] theorem State.fetched_cpsr (s : State) (w : Word) :
    (s.fetched w).cpsr = s.cpsr := rfl

@[simp] theorem State.fetched_spsrs (s : State) (w : Word) :
    (s.fetched w).spsrs = s.spsrs := rfl

@[simp] theorem State.fetched_mem (s : State) (w : Word) :
    (s.fetched w).mem = s.mem := rfl

@[simp] theorem State.fetched_phase (s : State) (w : Word) :
    (s.fetched w).phase = .decodeExecute := rfl

@[simp] theorem State.fetched_ir (s : State) (w : Word) :
    (s.fetched w).ir = w := rfl

@[simp] theorem State.fetched_pcNext (s : State) (w : Word) :
    (s.fetched w).pcNext = s.pcNext := rfl

@[simp] theorem State.fetched_pcWritten (s : State) (w : Word) :
    (s.fetched w).pcWritten = s.pcWritten := rfl

@[simp] theorem State.fetched_irqReq (s : State) (w : Word) :
    (s.fetched w).irqReq = s.irqReq := rfl

@[simp] theorem State.fetched_fiqReq (s : State) (w : Word) :
    (s.fetched w).fiqReq = s.fiqReq := rfl

@[simp] theorem State.fetched_run (s : State) (w : Word) :
    (s.fetched w).run = s.run := rfl

@[simp] theorem State.fetched_report (s : State) (w : Word) :
    (s.fetched w).report = s.report := rfl

/-! State.placeWord. -/

@[simp] theorem State.placeWord_cfg (s : State) (a w : Word) :
    (s.placeWord a w).cfg = s.cfg := rfl

@[simp] theorem State.placeWord_regs (s : State) (a w : Word) :
    (s.placeWord a w).regs = s.regs := rfl

@[simp] theorem State.placeWord_pc (s : State) (a w : Word) :
    (s.placeWord a w).pc = s.pc := rfl

@[simp] theorem State.placeWord_cpsr (s : State) (a w : Word) :
    (s.placeWord a w).cpsr = s.cpsr := rfl

@[simp] theorem State.placeWord_spsrs (s : State) (a w : Word) :
    (s.placeWord a w).spsrs = s.spsrs := rfl

@[simp] theorem State.placeWord_mem (s : State) (a w : Word) :
    (s.placeWord a w).mem = s.mem.writeWord s.cfg.fetchEndian a w := rfl

@[simp] theorem State.placeWord_phase (s : State) (a w : Word) :
    (s.placeWord a w).phase = s.phase := rfl

@[simp] theorem State.placeWord_ir (s : State) (a w : Word) :
    (s.placeWord a w).ir = s.ir := rfl

@[simp] theorem State.placeWord_pcNext (s : State) (a w : Word) :
    (s.placeWord a w).pcNext = s.pcNext := rfl

@[simp] theorem State.placeWord_pcWritten (s : State) (a w : Word) :
    (s.placeWord a w).pcWritten = s.pcWritten := rfl

@[simp] theorem State.placeWord_irqReq (s : State) (a w : Word) :
    (s.placeWord a w).irqReq = s.irqReq := rfl

@[simp] theorem State.placeWord_fiqReq (s : State) (a w : Word) :
    (s.placeWord a w).fiqReq = s.fiqReq := rfl

@[simp] theorem State.placeWord_run (s : State) (a w : Word) :
    (s.placeWord a w).run = s.run := rfl

@[simp] theorem State.placeWord_report (s : State) (a w : Word) :
    (s.placeWord a w).report = s.report := rfl

/-! enterException. -/

@[simp] theorem enterException_cfg (k : ExcKind) (pc : Word) (s : State) :
    (enterException k pc s).cfg = s.cfg := rfl

@[simp] theorem enterException_regs (k : ExcKind) (pc : Word) (s : State) :
    (enterException k pc s).regs = s.regs.write (.lr k.target.bank) (k.link s.cfg pc) := rfl

@[simp] theorem enterException_pc (k : ExcKind) (pc : Word) (s : State) :
    (enterException k pc s).pc = s.cfg.vectorBase + k.offset := rfl

@[simp] theorem enterException_cpsr (k : ExcKind) (pc : Word) (s : State) :
    (enterException k pc s).cpsr = 
      { s.cpsr with mode := k.target.mode, t := false, i := true, f := s.cpsr.f || k.setsF } := rfl

@[simp] theorem enterException_spsrs (k : ExcKind) (pc : Word) (s : State) :
    (enterException k pc s).spsrs = s.spsrs.write k.target (k.saved s.cfg s.cpsr) := rfl

@[simp] theorem enterException_mem (k : ExcKind) (pc : Word) (s : State) :
    (enterException k pc s).mem = s.mem := rfl

@[simp] theorem enterException_phase (k : ExcKind) (pc : Word) (s : State) :
    (enterException k pc s).phase = .fetch := rfl

@[simp] theorem enterException_ir (k : ExcKind) (pc : Word) (s : State) :
    (enterException k pc s).ir = s.ir := rfl

@[simp] theorem enterException_pcNext (k : ExcKind) (pc : Word) (s : State) :
    (enterException k pc s).pcNext = s.pcNext := rfl

@[simp] theorem enterException_pcWritten (k : ExcKind) (pc : Word) (s : State) :
    (enterException k pc s).pcWritten = false := rfl

@[simp] theorem enterException_irqReq (k : ExcKind) (pc : Word) (s : State) :
    (enterException k pc s).irqReq = s.irqReq := rfl

@[simp] theorem enterException_fiqReq (k : ExcKind) (pc : Word) (s : State) :
    (enterException k pc s).fiqReq = s.fiqReq := rfl

@[simp] theorem enterException_run (k : ExcKind) (pc : Word) (s : State) :
    (enterException k pc s).run = s.run := rfl

@[simp] theorem enterException_report (k : ExcKind) (pc : Word) (s : State) :
    (enterException k pc s).report = s.report := rfl

/-! trapEntered. -/

@[simp] theorem trapEntered_cfg (k : ExcKind) (o : NonOk) (s : State) :
    (trapEntered k o s).cfg = s.cfg := rfl

@[simp] theorem trapEntered_regs (k : ExcKind) (o : NonOk) (s : State) :
    (trapEntered k o s).regs = s.regs.write (.lr k.target.bank) (k.link s.cfg s.pc) := rfl

@[simp] theorem trapEntered_pc (k : ExcKind) (o : NonOk) (s : State) :
    (trapEntered k o s).pc = s.cfg.vectorBase + k.offset := rfl

@[simp] theorem trapEntered_cpsr (k : ExcKind) (o : NonOk) (s : State) :
    (trapEntered k o s).cpsr = 
      { s.cpsr with mode := k.target.mode, t := false, i := true, f := s.cpsr.f || k.setsF } := rfl

@[simp] theorem trapEntered_spsrs (k : ExcKind) (o : NonOk) (s : State) :
    (trapEntered k o s).spsrs = s.spsrs.write k.target (k.saved s.cfg s.cpsr) := rfl

@[simp] theorem trapEntered_mem (k : ExcKind) (o : NonOk) (s : State) :
    (trapEntered k o s).mem = s.mem := rfl

@[simp] theorem trapEntered_phase (k : ExcKind) (o : NonOk) (s : State) :
    (trapEntered k o s).phase = .fetch := rfl

@[simp] theorem trapEntered_ir (k : ExcKind) (o : NonOk) (s : State) :
    (trapEntered k o s).ir = s.ir := rfl

@[simp] theorem trapEntered_pcNext (k : ExcKind) (o : NonOk) (s : State) :
    (trapEntered k o s).pcNext = s.pcNext := rfl

@[simp] theorem trapEntered_pcWritten (k : ExcKind) (o : NonOk) (s : State) :
    (trapEntered k o s).pcWritten = false := rfl

@[simp] theorem trapEntered_irqReq (k : ExcKind) (o : NonOk) (s : State) :
    (trapEntered k o s).irqReq = s.irqReq := rfl

@[simp] theorem trapEntered_fiqReq (k : ExcKind) (o : NonOk) (s : State) :
    (trapEntered k o s).fiqReq = s.fiqReq := rfl

@[simp] theorem trapEntered_run (k : ExcKind) (o : NonOk) (s : State) :
    (trapEntered k o s).run = s.run := rfl

@[simp] theorem trapEntered_report (k : ExcKind) (o : NonOk) (s : State) :
    (trapEntered k o s).report = some (s.record o) := rfl

/-! trapReported. -/

@[simp] theorem trapReported_cfg (o : NonOk) (s : State) :
    (trapReported o s).cfg = s.cfg := rfl

@[simp] theorem trapReported_regs (o : NonOk) (s : State) :
    (trapReported o s).regs = s.regs := rfl

@[simp] theorem trapReported_pc (o : NonOk) (s : State) :
    (trapReported o s).pc = s.pc := rfl

@[simp] theorem trapReported_cpsr (o : NonOk) (s : State) :
    (trapReported o s).cpsr = s.cpsr := rfl

@[simp] theorem trapReported_spsrs (o : NonOk) (s : State) :
    (trapReported o s).spsrs = s.spsrs := rfl

@[simp] theorem trapReported_mem (o : NonOk) (s : State) :
    (trapReported o s).mem = s.mem := rfl

@[simp] theorem trapReported_phase (o : NonOk) (s : State) :
    (trapReported o s).phase = .fetch := rfl

@[simp] theorem trapReported_ir (o : NonOk) (s : State) :
    (trapReported o s).ir = s.ir := rfl

@[simp] theorem trapReported_pcNext (o : NonOk) (s : State) :
    (trapReported o s).pcNext = s.pcNext := rfl

@[simp] theorem trapReported_pcWritten (o : NonOk) (s : State) :
    (trapReported o s).pcWritten = false := rfl

@[simp] theorem trapReported_irqReq (o : NonOk) (s : State) :
    (trapReported o s).irqReq = s.irqReq := rfl

@[simp] theorem trapReported_fiqReq (o : NonOk) (s : State) :
    (trapReported o s).fiqReq = s.fiqReq := rfl

@[simp] theorem trapReported_run (o : NonOk) (s : State) :
    (trapReported o s).run = .stopped := rfl

@[simp] theorem trapReported_report (o : NonOk) (s : State) :
    (trapReported o s).report = some (s.record o) := rfl

/-! State.coreReset. -/

@[simp] theorem State.coreReset_cfg (s : State) :
    s.coreReset.cfg = s.cfg := rfl

@[simp] theorem State.coreReset_regs (s : State) :
    s.coreReset.regs = s.cfg.resetGpr := rfl

@[simp] theorem State.coreReset_pc (s : State) :
    s.coreReset.pc = s.cfg.vectorBase + 0x00#32 := rfl

@[simp] theorem State.coreReset_cpsr (s : State) :
    s.coreReset.cpsr = 
      { n := s.cfg.resetFlags.n, z := s.cfg.resetFlags.z, c := s.cfg.resetFlags.c
        v := s.cfg.resetFlags.v, reserved := 0#20, i := true, f := true, t := false, mode := .svc } := rfl

@[simp] theorem State.coreReset_spsrs (s : State) :
    s.coreReset.spsrs = s.cfg.resetSpsr := rfl

@[simp] theorem State.coreReset_mem (s : State) :
    s.coreReset.mem = s.mem := rfl

@[simp] theorem State.coreReset_phase (s : State) :
    s.coreReset.phase = .fetch := rfl

@[simp] theorem State.coreReset_ir (s : State) :
    s.coreReset.ir = s.ir := rfl

@[simp] theorem State.coreReset_pcNext (s : State) :
    s.coreReset.pcNext = s.pcNext := rfl

@[simp] theorem State.coreReset_pcWritten (s : State) :
    s.coreReset.pcWritten = false := rfl

@[simp] theorem State.coreReset_irqReq (s : State) :
    s.coreReset.irqReq = s.irqReq := rfl

@[simp] theorem State.coreReset_fiqReq (s : State) :
    s.coreReset.fiqReq = s.fiqReq := rfl

@[simp] theorem State.coreReset_run (s : State) :
    s.coreReset.run = .running := rfl

@[simp] theorem State.coreReset_report (s : State) :
    s.coreReset.report = none := rfl

/-! State.setReg. -/

@[simp] theorem State.setReg_cfg (s : State) (i : Reg) (v : Word) :
    (s.setReg i v).cfg = s.cfg := by
  unfold State.setReg; split <;> rfl

@[simp] theorem State.setReg_pc (s : State) (i : Reg) (v : Word) :
    (s.setReg i v).pc = s.pc := by
  unfold State.setReg; split <;> rfl

@[simp] theorem State.setReg_cpsr (s : State) (i : Reg) (v : Word) :
    (s.setReg i v).cpsr = s.cpsr := by
  unfold State.setReg; split <;> rfl

@[simp] theorem State.setReg_spsrs (s : State) (i : Reg) (v : Word) :
    (s.setReg i v).spsrs = s.spsrs := by
  unfold State.setReg; split <;> rfl

@[simp] theorem State.setReg_mem (s : State) (i : Reg) (v : Word) :
    (s.setReg i v).mem = s.mem := by
  unfold State.setReg; split <;> rfl

@[simp] theorem State.setReg_phase (s : State) (i : Reg) (v : Word) :
    (s.setReg i v).phase = s.phase := by
  unfold State.setReg; split <;> rfl

@[simp] theorem State.setReg_ir (s : State) (i : Reg) (v : Word) :
    (s.setReg i v).ir = s.ir := by
  unfold State.setReg; split <;> rfl

@[simp] theorem State.setReg_irqReq (s : State) (i : Reg) (v : Word) :
    (s.setReg i v).irqReq = s.irqReq := by
  unfold State.setReg; split <;> rfl

@[simp] theorem State.setReg_fiqReq (s : State) (i : Reg) (v : Word) :
    (s.setReg i v).fiqReq = s.fiqReq := by
  unfold State.setReg; split <;> rfl

@[simp] theorem State.setReg_run (s : State) (i : Reg) (v : Word) :
    (s.setReg i v).run = s.run := by
  unfold State.setReg; split <;> rfl

@[simp] theorem State.setReg_report (s : State) (i : Reg) (v : Word) :
    (s.setReg i v).report = s.report := by
  unfold State.setReg; split <;> rfl

/-- A write of r15 is the write of `pc_next` (10_state.md R28). -/
@[simp] theorem State.setReg_fifteen (s : State) (v : Word) :
    s.setReg 15 v = { s with pcNext := v, pcWritten := true } := by
  simp [State.setReg]

/-- A write of another register goes to the register the banking map names (10_state.md R24). -/
theorem State.setReg_of_phys {s : State} {i : Reg} {p : PhysReg} (v : Word)
    (h : phys s.cfg.fiqBanks s.cpsr.mode i = some p) :
    s.setReg i v = { s with regs := s.regs.write p v } := by
  simp [State.setReg, h]

theorem State.setReg_pcNext_of_ne (s : State) {i : Reg} (v : Word) (h : i ≠ 15) :
    (s.setReg i v).pcNext = s.pcNext := by
  obtain ⟨p, hp⟩ := phys_of_ne s.cfg.fiqBanks s.cpsr.mode h
  simp [State.setReg, hp]

theorem State.setReg_pcWritten_of_ne (s : State) {i : Reg} (v : Word) (h : i ≠ 15) :
    (s.setReg i v).pcWritten = s.pcWritten := by
  obtain ⟨p, hp⟩ := phys_of_ne s.cfg.fiqBanks s.cpsr.mode h
  simp [State.setReg, hp]

/-- What a register write does to each physical register: the one the banking map names changes. -/
theorem State.setReg_read (s : State) (i : Reg) (v : Word) (q : PhysReg) :
    (s.setReg i v).regs.read q =
      if phys s.cfg.fiqBanks s.cpsr.mode i = some q then v else s.regs.read q := by
  unfold State.setReg
  split
  · rename_i p hp
    simp only [hp, Option.some.injEq, RegFile.read_write, eq_comm]
  · rename_i hp
    simp [hp]

/-- The read of r15 (10_state.md R27). -/
@[simp] theorem State.reg_fifteen (s : State) : s.reg 15 = s.pc + 8#32 := by
  simp [State.reg]

theorem State.reg_of_phys {s : State} {i : Reg} {p : PhysReg}
    (h : phys s.cfg.fiqBanks s.cpsr.mode i = some p) : s.reg i = s.regs.read p := by
  simp [State.reg, h]

/-- A visible register reads what was written to it. -/
theorem State.reg_setReg_same (s : State) {i : Reg} (v : Word) (h : i ≠ 15) :
    (s.setReg i v).reg i = v := by
  obtain ⟨p, hp⟩ := phys_of_ne s.cfg.fiqBanks s.cpsr.mode h
  simp [State.reg, State.setReg, hp]

/-- A write of one visible register leaves every other one alone. -/
theorem State.reg_setReg_other (s : State) {i j : Reg} (v : Word) (h : j ≠ i) :
    (s.setReg i v).reg j = s.reg j := by
  unfold State.reg
  simp only [State.setReg_cfg, State.setReg_cpsr, State.setReg_pc, State.setReg_read]
  split
  · rename_i q hq
    rw [if_neg fun hi => h (phys_injective _ _ hq hi)]
  · rfl

/-- The next pc of a step that writes no pc (10_state.md R29). -/
theorem State.nextPc_of_not_written {s : State} (h : s.pcWritten = false) :
    s.nextPc = s.pc + 4#32 := by
  simp [State.nextPc, h]

/-- The next pc of a step that writes the pc (10_state.md R29). -/
theorem State.nextPc_of_written {s : State} (h : s.pcWritten = true) : s.nextPc = s.pcNext := by
  simp [State.nextPc, h]

end Sys2Proof.Machine
end

