-- ==== Sys2Proof/Laws/Execute.lean ====
section
/-! SUPPORT. Inversion lemmas: what routing an outcome, executing an instruction, and a step can do,
said once. -/

set_option Elab.async false

namespace Sys2Proof.Machine

/-- What routing an outcome can answer: a trap is entered or reported, an interrupt is entered, or the
run ends. -/
theorem settle_next {o : NonOk} {s t : State} (h : settle o s = .next t) :
    (∃ k, t = routeTrap k o s) ∨ (∃ k, o = .interruptTaken k ∧ t = trapEntered k.exc o s) := by
  cases o with
  | undefinedInstruction r => exact .inl ⟨.undef, by simpa [settle] using h.symm⟩
  | softwareInterrupt c => exact .inl ⟨.swi, by simpa [settle] using h.symm⟩
  | fetchFault a =>
    simp only [settle] at h
    split at h
    · cases h
    · exact .inl ⟨.prefetchAbort, by simpa using h.symm⟩
  | refused r => cases h
  | unpredictable r => cases h
  | interruptTaken k => exact .inr ⟨k, rfl, by simpa [settle] using h.symm⟩
  | classificationFailure w => cases h

/-- A routed trap is entered under `apply` and reported under `report` (60_exceptions.md R268). -/
theorem routeTrap_cases (k : ExcKind) (o : NonOk) (s : State) :
    (s.cfg.trapEntry = .apply ∧ routeTrap k o s = trapEntered k o s) ∨
      (s.cfg.trapEntry = .report ∧ routeTrap k o s = trapReported o s) := by
  unfold routeTrap
  cases s.cfg.trapEntry
  · exact .inl ⟨rfl, rfl⟩
  · exact .inr ⟨rfl, rfl⟩

theorem routeTrap_apply {s : State} (k : ExcKind) (o : NonOk) (h : s.cfg.trapEntry = .apply) :
    routeTrap k o s = trapEntered k o s := by
  simp [routeTrap, h]

theorem routeTrap_report {s : State} (k : ExcKind) (o : NonOk) (h : s.cfg.trapEntry = .report) :
    routeTrap k o s = trapReported o s := by
  simp [routeTrap, h]

/-! The three ways an instruction goes by its condition (46_dispatch.md R242). -/

theorem execute_reserved {c : Cond} {body : State → Except NonOk State} {s : State}
    (h : conditionPassed c s.cpsr = none) :
    execute c body s = settle (.undefinedInstruction .undefinedCondition) s := by
  simp [execute, h]

theorem execute_failed {c : Cond} {body : State → Except NonOk State} {s : State}
    (h : conditionPassed c s.cpsr = some false) : execute c body s = .next s.skip := by
  simp [execute, h]

theorem execute_ok {c : Cond} {body : State → Except NonOk State} {s t : State}
    (h : conditionPassed c s.cpsr = some true) (hb : body { s with pcWritten := false } = .ok t) :
    execute c body s = .next t.commit := by
  simp [execute, h, hb]

theorem execute_error {c : Cond} {body : State → Except NonOk State} {s : State} {o : NonOk}
    (h : conditionPassed c s.cpsr = some true) (hb : body { s with pcWritten := false } = .error o) :
    execute c body s = settle o s := by
  simp [execute, h, hb]

/-- Everything an instruction that answers a next state can have done. -/
theorem execute_next {c : Cond} {body : State → Except NonOk State} {s t : State}
    (h : execute c body s = .next t) :
    (conditionPassed c s.cpsr = none ∧
        settle (.undefinedInstruction .undefinedCondition) s = .next t) ∨
      (conditionPassed c s.cpsr = some false ∧ t = s.skip) ∨
      (conditionPassed c s.cpsr = some true ∧
        ((∃ o, body { s with pcWritten := false } = .error o ∧ settle o s = .next t) ∨
          ∃ u, body { s with pcWritten := false } = .ok u ∧ t = u.commit)) := by
  unfold execute at h
  split at h
  · exact .inl ⟨‹_›, h⟩
  · exact .inr (.inl ⟨‹_›, by simpa using h.symm⟩)
  · refine .inr (.inr ⟨‹_›, ?_⟩)
    split at h
    · exact .inl ⟨_, ‹_›, h⟩
    · exact .inr ⟨_, ‹_›, by simpa using h.symm⟩

/-- Only the reserved condition has no truth value (40_condition.md R120, R121). -/
theorem conditionPassed_eq_none (c : Cond) (p : Psr) :
    conditionPassed c p = none ↔ c = .reserved := by
  cases c <;> simp [conditionPassed]

/-- What no executor changes before the commit: the parameters, the pc itself, the memory, the hidden
state of the step, the interrupt levels, the run mark and the record. -/
structure BodyFrame (s t : State) : Prop where
  cfg : t.cfg = s.cfg
  pc : t.pc = s.pc
  mem : t.mem = s.mem
  phase : t.phase = s.phase
  ir : t.ir = s.ir
  irqReq : t.irqReq = s.irqReq
  fiqReq : t.fiqReq = s.fiqReq
  run : t.run = s.run
  report : t.report = s.report

theorem BodyFrame.setReg (s : State) (i : Reg) (v : Word) : BodyFrame s (s.setReg i v) := by
  constructor <;> simp

theorem BodyFrame.trans {s t u : State} (h : BodyFrame s t) (g : BodyFrame t u) : BodyFrame s u := by
  obtain ⟨h1, h2, h3, h4, h5, h6, h7, h8, h9⟩ := h
  obtain ⟨g1, g2, g3, g4, g5, g6, g7, g8, g9⟩ := g
  constructor <;> simp_all

/-- A CPSR write stays within the frame. -/
theorem BodyFrame.withCpsr {s t : State} (h : BodyFrame s t) (p : Psr) :
    BodyFrame s { t with cpsr := p } :=
  ⟨h.cfg, h.pc, h.mem, h.phase, h.ir, h.irqReq, h.fiqReq, h.run, h.report⟩

theorem returnFromException_frame {v : Word} {s t : State}
    (h : returnFromException v s = .ok t) : BodyFrame s t := by
  unfold returnFromException at h
  split at h
  · cases h
  · split at h
    · cases h
    · cases h
      exact (BodyFrame.setReg s 15 v).withCpsr _

theorem dpBody_frame {op : AluOp} {sbz : Bool} {a : DpArgs} {s t : State}
    (h : dpBody op sbz a s = .ok t) : BodyFrame s t := by
  unfold dpBody at h
  split at h
  · cases h
  · split at h
    · cases h
    · dsimp only at h
      split at h
      · split at h
        · exact returnFromException_frame h
        · cases h
          exact (BodyFrame.setReg ..).withCpsr _
      · cases h
        exact BodyFrame.setReg ..

theorem testBody_frame {op : AluOp} {a : TestArgs} {s t : State}
    (h : testBody op a s = .ok t) : BodyFrame s t := by
  unfold testBody at h
  split at h
  · cases h
  · split at h
    · cases h
    · cases h
      exact ⟨rfl, rfl, rfl, rfl, rfl, rfl, rfl, rfl, rfl⟩

theorem mulBody_frame {acc : Bool} {op : Word → Word → Word → Word} {a : MulArgs} {s t : State}
    (h : mulBody acc op a s = .ok t) : BodyFrame s t := by
  unfold mulBody at h
  split at h
  · cases h
  · cases h
    split
    · exact (BodyFrame.setReg ..).withCpsr _
    · exact BodyFrame.setReg ..

theorem mullBody_frame {op : Word → Word → BitVec 64 → BitVec 64} {a : MullArgs} {s t : State}
    (h : mullBody op a s = .ok t) : BodyFrame s t := by
  unfold mullBody at h
  split at h
  · cases h
  · cases h
    split
    · exact ((BodyFrame.setReg ..).trans (BodyFrame.setReg ..)).withCpsr _
    · exact (BodyFrame.setReg ..).trans (BodyFrame.setReg ..)

theorem mrsBody_frame {a : MrsArgs} {s t : State} (h : mrsBody a s = .ok t) : BodyFrame s t := by
  unfold mrsBody at h
  split at h
  · cases h
  · split at h
    · split at h
      · cases h
      · cases h
        exact BodyFrame.setReg ..
    · cases h
      exact BodyFrame.setReg ..

theorem msrWrite_frame {spsr f c : Bool} {v : Word} {s t : State}
    (h : msrWrite spsr f c v s = .ok t) : BodyFrame s t := by
  unfold msrWrite at h
  split at h
  · split at h
    · cases h
    · cases h
      exact ⟨rfl, rfl, rfl, rfl, rfl, rfl, rfl, rfl, rfl⟩
  · split at h
    · cases h
    · split at h
      · cases h
      · cases h
        exact ⟨rfl, rfl, rfl, rfl, rfl, rfl, rfl, rfl, rfl⟩

theorem msrRegBody_frame {a : MsrRegArgs} {s t : State} (h : msrRegBody a s = .ok t) :
    BodyFrame s t := by
  unfold msrRegBody at h
  split at h
  · cases h
  · exact msrWrite_frame h

theorem msrImmBody_frame {a : MsrImmArgs} {s t : State} (h : msrImmBody a s = .ok t) :
    BodyFrame s t := by
  unfold msrImmBody at h
  split at h
  · cases h
  · exact msrWrite_frame h

theorem branchBody_frame {a : BranchArgs} {s t : State} (h : branchBody a s = .ok t) :
    BodyFrame s t := by
  cases h
  exact BodyFrame.setReg ..

theorem branchLinkBody_frame {a : BranchArgs} {s t : State} (h : branchLinkBody a s = .ok t) :
    BodyFrame s t := by
  cases h
  exact (BodyFrame.setReg ..).trans (BodyFrame.setReg ..)

theorem branchExchangeBody_frame {a : BxArgs} {s t : State} (h : branchExchangeBody a s = .ok t) :
    BodyFrame s t := by
  cases h
  exact (BodyFrame.setReg ..).withCpsr _

theorem raisingBody_frame {o : NonOk} {s t : State}
    (h : (fun _ : State => (Except.error o : Except NonOk State)) s = .ok t) : BodyFrame s t := by
  cases h

/-- Every instruction is its condition, an executor within the frame, and the commit. -/
theorem exec_body (i : Instr) :
    ∃ body : State → Except NonOk State,
      (∀ s, exec i s = execute i.cond body s) ∧ ∀ s t, body s = .ok t → BodyFrame s t := by
  have trap (c : Cond) (o : NonOk) :
      ∃ body : State → Except NonOk State,
        (∀ s, execute c (fun _ => .error o) s = execute c body s) ∧
          ∀ s t, body s = .ok t → BodyFrame s t :=
    ⟨_, fun _ => rfl, fun _ _ h => raisingBody_frame h⟩
  cases i
  all_goals
    first
    | exact ⟨_, fun _ => rfl, fun _ _ h => dpBody_frame h⟩
    | exact ⟨_, fun _ => rfl, fun _ _ h => testBody_frame h⟩
    | exact ⟨_, fun _ => rfl, fun _ _ h => mulBody_frame h⟩
    | exact ⟨_, fun _ => rfl, fun _ _ h => mullBody_frame h⟩
    | exact ⟨_, fun _ => rfl, fun _ _ h => mrsBody_frame h⟩
    | exact ⟨_, fun _ => rfl, fun _ _ h => msrRegBody_frame h⟩
    | exact ⟨_, fun _ => rfl, fun _ _ h => msrImmBody_frame h⟩
    | exact ⟨_, fun _ => rfl, fun _ _ h => branchBody_frame h⟩
    | exact ⟨_, fun _ => rfl, fun _ _ h => branchLinkBody_frame h⟩
    | exact ⟨_, fun _ => rfl, fun _ _ h => branchExchangeBody_frame h⟩
    | exact trap _ (.refused (.memoryClass .singleDataSwap))
    | exact trap _ (.refused (.memoryClass .halfwordTransferRegister))
    | exact trap _ (.refused (.memoryClass .halfwordTransferImmediate))
    | exact trap _ (.refused (.memoryClass .singleDataTransfer))
    | exact trap _ (.refused (.memoryClass .blockDataTransfer))
    | exact trap _ (.softwareInterrupt _)
    | exact trap _ (.undefinedInstruction .undefinedClass)
    | exact trap _ (.undefinedInstruction .noCoprocessor)
    | exact trap _ (.undefinedInstruction .malformedTestOp)
    | exact trap _ (.unpredictable .extensionSpace)

/-- Everything an instruction's next state can be: a routed trap, the skip, or the commit of an
executor's writes. -/
theorem exec_next {i : Instr} {s t : State} (h : exec i s = .next t) :
    (∃ k o, t = routeTrap k o s) ∨ (∃ k, t = trapEntered k.exc (.interruptTaken k) s) ∨
      t = s.skip ∨ ∃ u, BodyFrame s u ∧ t = u.commit := by
  obtain ⟨body, hbody, hframe⟩ := exec_body i
  rw [hbody] at h
  have trap {o : NonOk} (ho : settle o s = .next t) :
      (∃ k o, t = routeTrap k o s) ∨ ∃ k, t = trapEntered k.exc (.interruptTaken k) s := by
    rcases settle_next ho with ⟨k, rfl⟩ | ⟨k, rfl, rfl⟩
    · exact .inl ⟨k, o, rfl⟩
    · exact .inr ⟨k, rfl⟩
  rcases execute_next h with ⟨-, h⟩ | ⟨-, h⟩ | ⟨-, ⟨o, -, h⟩ | ⟨u, hu, h⟩⟩
  · exact (trap h).elim .inl fun h => .inr (.inl h)
  · exact .inr (.inr (.inl h))
  · exact (trap h).elim .inl fun h => .inr (.inl h)
  · have f := hframe _ _ hu
    exact .inr (.inr (.inr
      ⟨u, ⟨f.cfg, f.pc, f.mem, f.phase, f.ir, f.irqReq, f.fiqReq, f.run, f.report⟩, h⟩))

/-- Everything a step can answer as a next state: a core that is not running stays, an interrupt or a
prefetch abort is taken, or the fetched word's instruction runs. -/
theorem step_next {s t : State} (h : step s = .next t) :
    (s.run ≠ .running ∧ t = s) ∨
      (s.run = .running ∧ ∃ k, boundaryInterrupt s = some k ∧
        t = trapEntered k.exc (.interruptTaken k) s) ∨
      (s.run = .running ∧ s.fetch = none ∧ s.cfg.fetchFaultPolicy = .prefetchAbort ∧
        t = routeTrap .prefetchAbort (.fetchFault s.pc) s) ∨
      (s.run = .running ∧ ∃ w i, s.fetch = some w ∧ decodeWord w = .ok i ∧
        exec i (s.fetched w) = .next t) := by
  unfold step at h
  split at h
  · exact .inl ⟨by simp_all, by simpa using h.symm⟩
  · exact .inl ⟨by simp_all, by simpa using h.symm⟩
  · exact .inl ⟨by simp_all, by simpa using h.symm⟩
  · rename_i hr
    refine .inr ?_
    split at h
    · rename_i k hk
      exact .inl ⟨hr, k, hk, by simpa [settle] using h.symm⟩
    · refine .inr ?_
      split at h
      · cases h
      · split at h
        · cases h
        · split at h
          · rename_i hf
            simp only [settle] at h
            split at h
            · cases h
            · rename_i hp
              exact .inl ⟨hr, hf, hp, by simpa using h.symm⟩
          · rename_i w hf
            split at h
            · cases h
            · rename_i i hi
              exact .inr ⟨hr, w, i, hf, hi, h⟩

end Sys2Proof.Machine
end

