-- ==== Sys2Proof/Laws/Exceptions.lean ====
section
/-! SUPPORT. What exception entry leaves, and what routing a trap answers, said once. -/

set_option Elab.async false

namespace Sys2Proof.Machine

/-- Exception entry of every kind but Reset: the saved CPSR, the mode and its masks, the link value,
the vector, and nothing else (60_exceptions.md R269, R270). -/
theorem enterException_entered (k : ExcKind) (hk : k ≠ .reset) (pc : Word) (s : State) :
    Entered s (enterException k pc s) k.target k.offset (k.link s.cfg pc) k.setsF := by
  constructor
  all_goals first | rfl | skip
  · cases k <;> first | exact absurd rfl hk | simp [ExcKind.saved]
  · intro n hn
    simp [SpsrFile.read_write, hn]
  · simp
  · intro p hp
    simpa using RegFile.read_write_other _ _ (Ne.symm hp)

/-- The record of a taken exception does not touch what the entry left. -/
theorem trapEntered_entered (k : ExcKind) (hk : k ≠ .reset) (o : NonOk) (s : State) :
    Entered s (trapEntered k o s) k.target k.offset (k.link s.cfg s.pc) k.setsF := by
  obtain ⟨_, _, _, _, _, _, _, _, _, _, _, _, _, _⟩ := enterException_entered k hk s.pc s
  constructor <;> assumption

/-- A routed trap whose link value is `pc + 4`, by TRAP_ENTRY (60_exceptions.md R261, R268). -/
theorem routeTrap_traps (k : ExcKind) (hk : k ≠ .reset) (o : NonOk) (s : State)
    (hl : k.link s.cfg s.pc = s.pc + 4#32) (hf : k.setsF = false) :
    Traps s (.next (routeTrap k o s)) k.target k.offset o (s.record o).ir := by
  refine ⟨fun h => ⟨_, rfl, ?_, ?_⟩, fun h => ?_⟩
  · rw [routeTrap_apply _ _ h, ← hl, ← hf]
    exact trapEntered_entered k hk o s
  · rw [routeTrap_apply _ _ h]
    rfl
  · rw [routeTrap_report _ _ h]
    rfl

/-- An undefined-instruction outcome takes its trap (60_exceptions.md R260, R268). -/
theorem settle_undefined (s : State) (r : UndefReason) :
    TrapsUndefined s (settle (.undefinedInstruction r) s) r :=
  routeTrap_traps .undef (by decide) _ s rfl rfl

end Sys2Proof.Machine
end

