-- ==== Sys2Proof/Laws/Memory.lean ====
section
/-! SUPPORT. The memory keeps its canonical form, and a read after a write gives what was written. -/

set_option Elab.async false

namespace Sys2Proof.Machine

@[simp] theorem Memory.readByte_writeByte_same (m : Memory) (a : Nat) (v : Byte) :
    (m.writeByte a v).readByte a = some v := by
  induction m with
  | nil => simp [Memory.writeByte, Memory.readByte]
  | cons c m ih =>
    obtain ⟨k, b⟩ := c
    simp only [Memory.writeByte]
    split
    · simp [Memory.readByte]
    · split
      · simp [Memory.readByte]
      · rename_i h1 h2
        simp [Memory.readByte, h2, ih]

theorem Memory.readByte_writeByte_other (m : Memory) {a a' : Nat} (v : Byte) (h : a' ≠ a) :
    (m.writeByte a v).readByte a' = m.readByte a' := by
  induction m with
  | nil => simp [Memory.writeByte, Memory.readByte, h]
  | cons c m ih =>
    obtain ⟨k, b⟩ := c
    simp only [Memory.writeByte]
    split
    · simp [Memory.readByte, h]
    · split
      · rename_i h1 h2
        subst h2
        simp [Memory.readByte, h]
      · simp [Memory.readByte, ih]

theorem Memory.mem_writeByte {m : Memory} {a : Nat} {v : Byte} {c : Host.Cell}
    (h : c ∈ m.writeByte a v) : c = (a, v) ∨ c ∈ m := by
  induction m with
  | nil => simpa [Memory.writeByte] using h
  | cons d m ih =>
    obtain ⟨k, b⟩ := d
    simp only [Memory.writeByte] at h
    split at h
    · simpa using h
    · split at h
      · rcases List.mem_cons.mp h with h | h
        · exact .inl h
        · exact .inr (List.mem_cons_of_mem _ h)
      · rcases List.mem_cons.mp h with h | h
        · exact .inr (h ▸ List.mem_cons_self)
        · rcases ih h with h | h
          · exact .inl h
          · exact .inr (List.mem_cons_of_mem _ h)

/-- A byte write keeps the canonical form. -/
theorem Memory.wf_writeByte {m : Memory} {a : Nat} (v : Byte) (hm : m.wf) (ha : a < 2 ^ 32) :
    (m.writeByte a v).wf := by
  refine ⟨?_, fun c hc => ?_⟩
  · obtain ⟨hp, -⟩ := hm
    induction m with
    | nil => simp [Memory.writeByte]
    | cons d m ih =>
      obtain ⟨k, b⟩ := d
      rw [List.pairwise_cons] at hp
      simp only [Memory.writeByte]
      split
      · rename_i hak
        refine List.pairwise_cons.mpr ⟨fun c hc => ?_, List.pairwise_cons.mpr hp⟩
        rcases List.mem_cons.mp hc with rfl | hc
        · exact hak
        · exact lt_trans hak (hp.1 c hc)
      · split
        · rename_i _ hak
          subst hak
          exact List.pairwise_cons.mpr hp
        · rename_i h1 h2
          refine List.pairwise_cons.mpr ⟨fun c hc => ?_, ih hp.2⟩
          rcases Memory.mem_writeByte hc with rfl | hc
          · show k < a
            omega
          · exact hp.1 c hc
  · rcases Memory.mem_writeByte hc with rfl | hc
    · exact ha
    · exact hm.2 c hc

theorem byteAddr_lt (a : Word) (k : Nat) : byteAddr a k < 2 ^ 32 := (a + BitVec.ofNat 32 k).isLt

/-- The four bytes of a word lie at four addresses. -/
theorem byteAddr_injective (a : Word) {j k : Nat} (hj : j < 4) (hk : k < 4)
    (h : byteAddr a j = byteAddr a k) : j = k := by
  simp only [byteAddr, BitVec.toNat_add, BitVec.toNat_ofNat] at h
  omega

/-- A word write keeps the canonical form. -/
theorem Memory.wf_writeWord {m : Memory} (e : Endian) (a w : Word) (hm : m.wf) :
    (m.writeWord e a w).wf :=
  wf_writeByte _ (wf_writeByte _ (wf_writeByte _ (wf_writeByte _ hm (byteAddr_lt ..))
    (byteAddr_lt ..)) (byteAddr_lt ..)) (byteAddr_lt ..)

theorem wordOfBytes_byteOfWord (e : Endian) (w : Word) :
    wordOfBytes e (byteOfWord e w 0) (byteOfWord e w 1) (byteOfWord e w 2) (byteOfWord e w 3) = w := by
  apply BitVec.eq_of_getLsbD_eq
  intro i hi
  cases e <;>
  · simp only [wordOfBytes, byteOfWord, BitVec.getLsbD_append, BitVec.getLsbD_extractLsb']
    split_ifs <;>
    · rw [decide_eq_true (by omega), Bool.true_and]
      congr 1
      omega

/-- A word read after a write of the word gives it back. -/
@[simp] theorem Memory.readWord_writeWord (m : Memory) (e : Endian) (a w : Word) :
    (m.writeWord e a w).readWord e a = some w := by
  have ne {j k : Nat} (hj : j < 4) (hk : k < 4) (h : j ≠ k) : byteAddr a j ≠ byteAddr a k :=
    fun he => h (byteAddr_injective a hj hk he)
  have r0 : (m.writeWord e a w).readByte (byteAddr a 0) = some (byteOfWord e w 0) := by
    unfold Memory.writeWord
    rw [readByte_writeByte_other _ _ (ne (by decide) (by decide) (by decide)),
      readByte_writeByte_other _ _ (ne (by decide) (by decide) (by decide)),
      readByte_writeByte_other _ _ (ne (by decide) (by decide) (by decide)),
      readByte_writeByte_same]
  have r1 : (m.writeWord e a w).readByte (byteAddr a 1) = some (byteOfWord e w 1) := by
    unfold Memory.writeWord
    rw [readByte_writeByte_other _ _ (ne (by decide) (by decide) (by decide)),
      readByte_writeByte_other _ _ (ne (by decide) (by decide) (by decide)),
      readByte_writeByte_same]
  have r2 : (m.writeWord e a w).readByte (byteAddr a 2) = some (byteOfWord e w 2) := by
    unfold Memory.writeWord
    rw [readByte_writeByte_other _ _ (ne (by decide) (by decide) (by decide)),
      readByte_writeByte_same]
  have r3 : (m.writeWord e a w).readByte (byteAddr a 3) = some (byteOfWord e w 3) := by
    unfold Memory.writeWord
    rw [readByte_writeByte_same]
  simp only [Memory.readWord, r0, r1, r2, r3, wordOfBytes_byteOfWord]

/-- A word write leaves every byte outside the word alone. -/
theorem Memory.readByte_writeWord_other (m : Memory) (e : Endian) (a w : Word) {x : Nat}
    (h : ∀ k < 4, x ≠ byteAddr a k) : (m.writeWord e a w).readByte x = m.readByte x := by
  unfold Memory.writeWord
  rw [readByte_writeByte_other _ _ (h 3 (by decide)), readByte_writeByte_other _ _ (h 2 (by decide)),
    readByte_writeByte_other _ _ (h 1 (by decide)), readByte_writeByte_other _ _ (h 0 (by decide))]

/-- An aligned pc is a multiple of 4 (20_memory.md R62). -/
theorem pcAligned_iff (pc : Word) : pcAligned pc = true ↔ pc.toNat % 4 = 0 := by
  unfold pcAligned
  rw [beq_iff_eq, ← BitVec.toNat_inj]
  simp [BitVec.extractLsb'_toNat]

/-- The bytes of an aligned word lie at consecutive addresses, with no wrap. -/
theorem byteAddr_of_aligned {pc : Word} (h : pcAligned pc = true) {k : Nat} (hk : k < 4) :
    byteAddr pc k = pc.toNat + k := by
  rw [pcAligned_iff] at h
  unfold byteAddr
  have := pc.isLt
  simp [BitVec.toNat_add]
  omega

end Sys2Proof.Machine
end

