-- ==== Sys2Proof/Laws/Psr.lean ====
section
/-! SUPPORT. The two views of a PSR agree (10_state.md R31). -/

set_option Elab.async false

namespace Sys2Proof.Machine

@[simp] theorem Mode.ofBits_bits (m : Mode) : Mode.ofBits m.bits = some m := by
  cases m <;> rfl

theorem Mode.bits_of_ofBits {b : BitVec 5} {m : Mode} (h : Mode.ofBits b = some m) : m.bits = b := by
  revert b m; decide +revert

@[simp] theorem ExcMode.exc?_mode (m : ExcMode) : m.mode.exc? = some m := by
  cases m <;> rfl

theorem Mode.exc?_eq_none (m : Mode) : m.exc? = none ↔ m = .usr ∨ m = .sys := by
  cases m <;> simp [Mode.exc?]

/-! The bits of the word view (10_state.md R30). -/

theorem Psr.toWord_n (p : Psr) : p.toWord.getLsbD 31 = p.n := by
  simp only [Psr.toWord, BitVec.getLsbD_append]
  cases p.n <;> rfl

theorem Psr.toWord_z (p : Psr) : p.toWord.getLsbD 30 = p.z := by
  simp only [Psr.toWord, BitVec.getLsbD_append]
  cases p.z <;> rfl

theorem Psr.toWord_c (p : Psr) : p.toWord.getLsbD 29 = p.c := by
  simp only [Psr.toWord, BitVec.getLsbD_append]
  cases p.c <;> rfl

theorem Psr.toWord_v (p : Psr) : p.toWord.getLsbD 28 = p.v := by
  simp only [Psr.toWord, BitVec.getLsbD_append]
  cases p.v <;> rfl

theorem Psr.toWord_i (p : Psr) : p.toWord.getLsbD 7 = p.i := by
  simp only [Psr.toWord, BitVec.getLsbD_append]
  cases p.i <;> rfl

theorem Psr.toWord_f (p : Psr) : p.toWord.getLsbD 6 = p.f := by
  simp only [Psr.toWord, BitVec.getLsbD_append]
  cases p.f <;> rfl

theorem Psr.toWord_t (p : Psr) : p.toWord.getLsbD 5 = p.t := by
  simp only [Psr.toWord, BitVec.getLsbD_append]
  cases p.t <;> rfl

theorem Psr.toWord_mode (p : Psr) : p.toWord.extractLsb' 0 5 = p.mode.bits := by
  simp only [Psr.toWord]
  rw [BitVec.extractLsb'_append_eq_of_add_le (by decide)]
  simp

theorem Psr.toWord_reserved (p : Psr) : p.toWord.extractLsb' 8 20 = p.reserved := by
  apply BitVec.eq_of_getLsbD_eq
  intro k hk
  have h1 : ¬ (8 + k < 5) := by omega
  have h2 : ¬ (8 + k - 5 < 1) := by omega
  have h3 : ¬ (8 + k - 5 - 1 < 1) := by omega
  have h4 : ¬ (8 + k - 5 - 1 - 1 < 1) := by omega
  have h5 : 8 + k - 5 - 1 - 1 - 1 = k := by omega
  simp only [Psr.toWord, BitVec.getLsbD_extractLsb', BitVec.getLsbD_append, h1, h2, h3, h4, h5,
    hk, if_true, if_false, decide_true, Bool.true_and]

/-- The field view of the word view is the PSR itself. -/
@[simp] theorem Psr.ofWord?_toWord (p : Psr) : Psr.ofWord? p.toWord = some p := by
  simp only [Psr.ofWord?, toWord_mode, Mode.ofBits_bits, toWord_n, toWord_z, toWord_c, toWord_v,
    toWord_reserved, toWord_i, toWord_f, toWord_t]

/-- The field view exists exactly when the M field is a valid mode (10_state.md R32). -/
theorem Psr.ofWord?_eq_none (w : Word) :
    Psr.ofWord? w = none ↔ Mode.ofBits (w.extractLsb' 0 5) = none := by
  unfold Psr.ofWord?
  split <;> simp_all

/-- The fields of the field view. -/
theorem Psr.ofWord?_some {w : Word} {p : Psr} (h : Psr.ofWord? w = some p) :
    p.n = w.getLsbD 31 ∧ p.z = w.getLsbD 30 ∧ p.c = w.getLsbD 29 ∧ p.v = w.getLsbD 28 ∧
      p.reserved = w.extractLsb' 8 20 ∧ p.i = w.getLsbD 7 ∧ p.f = w.getLsbD 6 ∧
      p.t = w.getLsbD 5 ∧ p.mode.bits = w.extractLsb' 0 5 := by
  unfold Psr.ofWord? at h
  split at h
  · cases h
  · rename_i m hm
    cases h
    exact ⟨rfl, rfl, rfl, rfl, rfl, rfl, rfl, rfl, Mode.bits_of_ofBits hm⟩

/-- A PSR is fixed by its word. -/
theorem Psr.toWord_injective {p q : Psr} (h : p.toWord = q.toWord) : p = q := by
  have := congrArg Psr.ofWord? h
  simpa using this

end Sys2Proof.Machine
end

