-- ==== Sys2Proof/Laws/Operations.lean ====
section
/-! SUPPORT. What the operations the executors share compute: flag writes, the PSR merge, the strict
checks, the rotation, and the next pc after a register write. -/

set_option Elab.async false

namespace Sys2Proof.Machine

/-- The flag writes of data processing as a record update (42_data_processing.md R151). -/
theorem dpFlags_eq (p : Psr) (o : AluOut) :
    dpFlags p o =
      { p with
        n := o.result.getLsbD 31, z := decide (o.result = 0#32), c := o.carry
        v := o.overflow.getD p.v } := by
  simp [dpFlags, BitVec.msb_eq_getLsbD_last, isZero]
  rfl

/-- The flag writes of a multiply as a record update (43_multiply.md R197). -/
theorem mulFlags_eq {w : Nat} (p : Psr) (r : BitVec w) :
    mulFlags p r = { p with n := r.getLsbD (w - 1), z := decide (r = 0#w) } := by
  simp only [mulFlags, BitVec.msb_eq_getLsbD_last, isZero]
  congr 1

/-- The next pc after a register write that follows no other PC write (10_state.md R28, R29). -/
theorem State.setReg_nextPc (s : State) (h : s.pcWritten = false) (i : Reg) (v : Word) :
    (s.setReg i v).nextPc = if i = 15 then v else s.pc + 4#32 := by
  unfold State.nextPc State.setReg
  split
  · rename_i p hp
    have : i ≠ 15 := by
      rintro rfl
      simp at hp
    simp [h, this]
  · rename_i hp
    rw [phys_eq_none] at hp
    simp [hp]

/-! A pending PC write is read by no operand. -/

@[simp] theorem State.reg_pcWritten (s : State) (b : Bool) (i : Reg) :
    ({ s with pcWritten := b } : State).reg i = s.reg i := rfl

@[simp] theorem shifterOperand_pcWritten (s : State) (b : Bool) (o : Operand2) :
    shifterOperand o ({ s with pcWritten := b } : State) = shifterOperand o s := rfl

@[simp] theorem operand1_pcWritten (s : State) (b : Bool) (i : Reg) (o : Operand2) :
    operand1 i o ({ s with pcWritten := b } : State) = operand1 i o s := rfl

/-- The strict checks pass the register fields they allow (42_data_processing.md R177). -/
theorem strictChecksDp_none {s : State} {sbz : Bool} {rn rd : Reg} {o : Operand2}
    (h : OperandAllowed s rn rd o) (hs : s.cfg.strict = true → sbz = false) :
    strictChecksDp s.cfg.strict sbz rn rd o = none := by
  unfold strictChecksDp
  by_cases hst : s.cfg.strict = true
  · simp only [hst, hs hst]
    cases o <;> simp [OperandAllowed, hst] at h ⊢
    exact ⟨h.1, h.2.1, h.2.2⟩
  · simp [hst]

/-- A bit of a rotated word (00_scope.md R11). -/
theorem ror_getLsbD (v : Word) (n k : Nat) (hk : k < 32) :
    (ror v n).getLsbD k = v.getLsbD ((k + n) % 32) := by
  unfold ror
  rw [BitVec.getLsbD_rotateRight]
  have := Nat.mod_lt n (show 32 > 0 by decide)
  by_cases h : k < 32 - n % 32
  · simp only [h]
    simp
    congr 1
    omega
  · simp [h, hk]
    congr 1
    omega

/-- The bits of the merged PSR word (44_psr_transfer.md R214). -/
theorem msrMerge_merged (f c : Bool) (old operand : Word) :
    Merged f c old operand (msrMerge f c old operand) := by
  intro k hk
  simp only [msrMerge, BitVec.getLsbD_append, BitVec.getLsbD_extractLsb']
  by_cases h8 : k < 8
  · have : ¬ 28 ≤ k := by omega
    cases f <;> cases c <;> simp [h8, this]
  · by_cases h28 : k < 28
    · have : ¬ 28 ≤ k := by omega
      have : k - 8 < 20 := by omega
      have : 8 + (k - 8) = k := by omega
      simp [*]
    · have : 28 ≤ k := by omega
      have : ¬ k - 8 < 20 := by omega
      have : k - 8 - 20 < 4 := by omega
      have : 28 + (k - 8 - 20) = k := by omega
      cases f <;> simp [*]

/-- The mode field of the merged PSR word. -/
theorem msrMerge_mode (f c : Bool) (old operand : Word) :
    (msrMerge f c old operand).extractLsb' 0 5 = (if c then operand else old).extractLsb' 0 5 := by
  apply BitVec.eq_of_getLsbD_eq
  intro k hk
  have := msrMerge_merged f c old operand k (by omega)
  simp only [BitVec.getLsbD_extractLsb', hk, decide_true, Bool.true_and, Nat.zero_add, this]
  have h1 : ¬ 28 ≤ k := by omega
  have h2 : k < 8 := by omega
  cases c <;> simp [h1, h2]

end Sys2Proof.Machine
end

