-- ==== Sys2Proof/Laws/PerInstr.lean ====
section
/-! SUPPORT. Laws stated for every instruction, one lemma per constructor of Instr. -/

set_option Elab.async false

namespace Sys2Proof.Laws

/-- Bits 31:28 of every word are the condition field (30_encoding.md R81). -/
def CondField.Statement (i : Instr) : Prop := (encode i).extractLsb' 28 4 = i.cond.bits

theorem CondField.mul (a) : CondField.Statement (.mul a) := by
  simp only [CondField.Statement, encode, encodeMul]
  repeat rw [field_upper _ _ (by decide)]
  exact field_whole _ _ rfl

theorem CondField.mla (a) : CondField.Statement (.mla a) := by
  simp only [CondField.Statement, encode, encodeMul]
  repeat rw [field_upper _ _ (by decide)]
  exact field_whole _ _ rfl

theorem CondField.umull (a) : CondField.Statement (.umull a) := by
  simp only [CondField.Statement, encode, encodeMull]
  repeat rw [field_upper _ _ (by decide)]
  exact field_whole _ _ rfl

theorem CondField.umlal (a) : CondField.Statement (.umlal a) := by
  simp only [CondField.Statement, encode, encodeMull]
  repeat rw [field_upper _ _ (by decide)]
  exact field_whole _ _ rfl

theorem CondField.smull (a) : CondField.Statement (.smull a) := by
  simp only [CondField.Statement, encode, encodeMull]
  repeat rw [field_upper _ _ (by decide)]
  exact field_whole _ _ rfl

theorem CondField.smlal (a) : CondField.Statement (.smlal a) := by
  simp only [CondField.Statement, encode, encodeMull]
  repeat rw [field_upper _ _ (by decide)]
  exact field_whole _ _ rfl

theorem CondField.swp (a) : CondField.Statement (.swp a) := by
  simp only [CondField.Statement, encode, encodeSwap]
  repeat rw [field_upper _ _ (by decide)]
  exact field_whole _ _ rfl

theorem CondField.swpb (a) : CondField.Statement (.swpb a) := by
  simp only [CondField.Statement, encode, encodeSwap]
  repeat rw [field_upper _ _ (by decide)]
  exact field_whole _ _ rfl

theorem CondField.bx (a) : CondField.Statement (.bx a) := by
  simp only [CondField.Statement, encode]
  repeat rw [field_upper _ _ (by decide)]
  exact field_whole _ _ rfl

theorem CondField.strhReg (a) : CondField.Statement (.strhReg a) := by
  simp only [CondField.Statement, encode, encodeHdtReg]
  repeat rw [field_upper _ _ (by decide)]
  exact field_whole _ _ rfl

theorem CondField.ldrhReg (a) : CondField.Statement (.ldrhReg a) := by
  simp only [CondField.Statement, encode, encodeHdtReg]
  repeat rw [field_upper _ _ (by decide)]
  exact field_whole _ _ rfl

theorem CondField.ldrsbReg (a) : CondField.Statement (.ldrsbReg a) := by
  simp only [CondField.Statement, encode, encodeHdtReg]
  repeat rw [field_upper _ _ (by decide)]
  exact field_whole _ _ rfl

theorem CondField.ldrshReg (a) : CondField.Statement (.ldrshReg a) := by
  simp only [CondField.Statement, encode, encodeHdtReg]
  repeat rw [field_upper _ _ (by decide)]
  exact field_whole _ _ rfl

theorem CondField.hdtRegOther (a) : CondField.Statement (.hdtRegOther a) := by
  simp only [CondField.Statement, encode]
  repeat rw [field_upper _ _ (by decide)]
  exact field_whole _ _ rfl

theorem CondField.strhImm (a) : CondField.Statement (.strhImm a) := by
  simp only [CondField.Statement, encode, encodeHdtImm]
  repeat rw [field_upper _ _ (by decide)]
  exact field_whole _ _ rfl

theorem CondField.ldrhImm (a) : CondField.Statement (.ldrhImm a) := by
  simp only [CondField.Statement, encode, encodeHdtImm]
  repeat rw [field_upper _ _ (by decide)]
  exact field_whole _ _ rfl

theorem CondField.ldrsbImm (a) : CondField.Statement (.ldrsbImm a) := by
  simp only [CondField.Statement, encode, encodeHdtImm]
  repeat rw [field_upper _ _ (by decide)]
  exact field_whole _ _ rfl

theorem CondField.ldrshImm (a) : CondField.Statement (.ldrshImm a) := by
  simp only [CondField.Statement, encode, encodeHdtImm]
  repeat rw [field_upper _ _ (by decide)]
  exact field_whole _ _ rfl

theorem CondField.hdtImmOther (a) : CondField.Statement (.hdtImmOther a) := by
  simp only [CondField.Statement, encode]
  repeat rw [field_upper _ _ (by decide)]
  exact field_whole _ _ rfl

theorem CondField.undef (a) : CondField.Statement (.undef a) := by
  simp only [CondField.Statement, encode]
  repeat rw [field_upper _ _ (by decide)]
  exact field_whole _ _ rfl

theorem CondField.str (a) : CondField.Statement (.str a) := by
  simp only [CondField.Statement, encode, encodeSdt]
  repeat rw [field_upper _ _ (by decide)]
  exact field_whole _ _ rfl

theorem CondField.ldr (a) : CondField.Statement (.ldr a) := by
  simp only [CondField.Statement, encode, encodeSdt]
  repeat rw [field_upper _ _ (by decide)]
  exact field_whole _ _ rfl

theorem CondField.strb (a) : CondField.Statement (.strb a) := by
  simp only [CondField.Statement, encode, encodeSdt]
  repeat rw [field_upper _ _ (by decide)]
  exact field_whole _ _ rfl

theorem CondField.ldrb (a) : CondField.Statement (.ldrb a) := by
  simp only [CondField.Statement, encode, encodeSdt]
  repeat rw [field_upper _ _ (by decide)]
  exact field_whole _ _ rfl

theorem CondField.stm (a) : CondField.Statement (.stm a) := by
  simp only [CondField.Statement, encode, encodeBdt]
  repeat rw [field_upper _ _ (by decide)]
  exact field_whole _ _ rfl

theorem CondField.ldm (a) : CondField.Statement (.ldm a) := by
  simp only [CondField.Statement, encode, encodeBdt]
  repeat rw [field_upper _ _ (by decide)]
  exact field_whole _ _ rfl

theorem CondField.b (a) : CondField.Statement (.b a) := by
  simp only [CondField.Statement, encode]
  repeat rw [field_upper _ _ (by decide)]
  exact field_whole _ _ rfl

theorem CondField.bl (a) : CondField.Statement (.bl a) := by
  simp only [CondField.Statement, encode]
  repeat rw [field_upper _ _ (by decide)]
  exact field_whole _ _ rfl

theorem CondField.stc (a) : CondField.Statement (.stc a) := by
  simp only [CondField.Statement, encode, encodeCdt]
  repeat rw [field_upper _ _ (by decide)]
  exact field_whole _ _ rfl

theorem CondField.ldc (a) : CondField.Statement (.ldc a) := by
  simp only [CondField.Statement, encode, encodeCdt]
  repeat rw [field_upper _ _ (by decide)]
  exact field_whole _ _ rfl

theorem CondField.cdp (a) : CondField.Statement (.cdp a) := by
  simp only [CondField.Statement, encode]
  repeat rw [field_upper _ _ (by decide)]
  exact field_whole _ _ rfl

theorem CondField.mcr (a) : CondField.Statement (.mcr a) := by
  simp only [CondField.Statement, encode, encodeCrt]
  repeat rw [field_upper _ _ (by decide)]
  exact field_whole _ _ rfl

theorem CondField.mrc (a) : CondField.Statement (.mrc a) := by
  simp only [CondField.Statement, encode, encodeCrt]
  repeat rw [field_upper _ _ (by decide)]
  exact field_whole _ _ rfl

theorem CondField.swi (a) : CondField.Statement (.swi a) := by
  simp only [CondField.Statement, encode]
  repeat rw [field_upper _ _ (by decide)]
  exact field_whole _ _ rfl

theorem CondField.mrs (a) : CondField.Statement (.mrs a) := by
  simp only [CondField.Statement, encode]
  repeat rw [field_upper _ _ (by decide)]
  exact field_whole _ _ rfl

theorem CondField.msrReg (a) : CondField.Statement (.msrReg a) := by
  simp only [CondField.Statement, encode]
  repeat rw [field_upper _ _ (by decide)]
  exact field_whole _ _ rfl

theorem CondField.msrImm (a) : CondField.Statement (.msrImm a) := by
  simp only [CondField.Statement, encode]
  repeat rw [field_upper _ _ (by decide)]
  exact field_whole _ _ rfl

theorem CondField.extension (a) : CondField.Statement (.extension a) := by
  simp only [CondField.Statement, encode]
  repeat rw [field_upper _ _ (by decide)]
  exact field_whole _ _ rfl

theorem CondField.badTest (a) : CondField.Statement (.badTest a) := by
  simp only [CondField.Statement, encode]
  repeat rw [field_upper _ _ (by decide)]
  exact field_whole _ _ rfl

theorem CondField.and (a) : CondField.Statement (.and a) := by
  simp only [CondField.Statement, encode, encodeDp]
  repeat rw [field_upper _ _ (by decide)]
  exact field_whole _ _ rfl

theorem CondField.eor (a) : CondField.Statement (.eor a) := by
  simp only [CondField.Statement, encode, encodeDp]
  repeat rw [field_upper _ _ (by decide)]
  exact field_whole _ _ rfl

theorem CondField.sub (a) : CondField.Statement (.sub a) := by
  simp only [CondField.Statement, encode, encodeDp]
  repeat rw [field_upper _ _ (by decide)]
  exact field_whole _ _ rfl

theorem CondField.rsb (a) : CondField.Statement (.rsb a) := by
  simp only [CondField.Statement, encode, encodeDp]
  repeat rw [field_upper _ _ (by decide)]
  exact field_whole _ _ rfl

theorem CondField.add (a) : CondField.Statement (.add a) := by
  simp only [CondField.Statement, encode, encodeDp]
  repeat rw [field_upper _ _ (by decide)]
  exact field_whole _ _ rfl

theorem CondField.adc (a) : CondField.Statement (.adc a) := by
  simp only [CondField.Statement, encode, encodeDp]
  repeat rw [field_upper _ _ (by decide)]
  exact field_whole _ _ rfl

theorem CondField.sbc (a) : CondField.Statement (.sbc a) := by
  simp only [CondField.Statement, encode, encodeDp]
  repeat rw [field_upper _ _ (by decide)]
  exact field_whole _ _ rfl

theorem CondField.rsc (a) : CondField.Statement (.rsc a) := by
  simp only [CondField.Statement, encode, encodeDp]
  repeat rw [field_upper _ _ (by decide)]
  exact field_whole _ _ rfl

theorem CondField.tst (a) : CondField.Statement (.tst a) := by
  simp only [CondField.Statement, encode, encodeTest]
  repeat rw [field_upper _ _ (by decide)]
  exact field_whole _ _ rfl

theorem CondField.teq (a) : CondField.Statement (.teq a) := by
  simp only [CondField.Statement, encode, encodeTest]
  repeat rw [field_upper _ _ (by decide)]
  exact field_whole _ _ rfl

theorem CondField.cmp (a) : CondField.Statement (.cmp a) := by
  simp only [CondField.Statement, encode, encodeTest]
  repeat rw [field_upper _ _ (by decide)]
  exact field_whole _ _ rfl

theorem CondField.cmn (a) : CondField.Statement (.cmn a) := by
  simp only [CondField.Statement, encode, encodeTest]
  repeat rw [field_upper _ _ (by decide)]
  exact field_whole _ _ rfl

theorem CondField.orr (a) : CondField.Statement (.orr a) := by
  simp only [CondField.Statement, encode, encodeDp]
  repeat rw [field_upper _ _ (by decide)]
  exact field_whole _ _ rfl

theorem CondField.mov (a) : CondField.Statement (.mov a) := by
  simp only [CondField.Statement, encode, encodeDp]
  repeat rw [field_upper _ _ (by decide)]
  exact field_whole _ _ rfl

theorem CondField.bic (a) : CondField.Statement (.bic a) := by
  simp only [CondField.Statement, encode, encodeDp]
  repeat rw [field_upper _ _ (by decide)]
  exact field_whole _ _ rfl

theorem CondField.mvn (a) : CondField.Statement (.mvn a) := by
  simp only [CondField.Statement, encode, encodeDp]
  repeat rw [field_upper _ _ (by decide)]
  exact field_whole _ _ rfl

end Sys2Proof.Laws
end

