-- ==== Sys2Proof/Tests/Slice0.lean ====
section
/-! SUPPORT. The model's own tests. Expected results come from the worked examples of the rules and from
95_test_vectors.md; words are written out from the formats of 30_encoding.md R82 to R95. Then the
ill-formed terms WellFormed refuses, and a witness for the hypotheses of every statement. -/

set_option Elab.async false

namespace Sys2Proof.Tests

open Sys2Proof Sys2Proof.Machine

/-! Helpers: small states and what a test looks at. -/

/-- The machine of 95_test_vectors.md Part 2 before a vector: pc = 0x100, TRAP_ENTRY = report, a mode
and the four flags; I, F and T are 0. -/
def at100 (m : Mode) (nzcv : BitVec 4) : State :=
  { State.reset with
    cfg := { Config.default with trapEntry := .report }
    pc := 0x100#32
    cpsr :=
      { n := nzcv.getLsbD 3, z := nzcv.getLsbD 2, c := nzcv.getLsbD 1, v := nzcv.getLsbD 0
        reserved := 0#20, i := false, f := false, t := false, mode := m } }

/-- The same with STRICT_UNPREDICTABLE. -/
def strictAt100 : State :=
  let s := at100 .usr 0#4
  { s with cfg := { s.cfg with strict := true } }

/-- The machine of 95_test_vectors.md V6: pc = 0x1000, TRAP_ENTRY = apply. -/
def at1000 (m : Mode) (nzcv : BitVec 4) : State :=
  { at100 m nzcv with cfg := Config.default, pc := 0x1000#32 }

/-- Registers of the current mode set to values. -/
def withRegs (s : State) (l : List (Reg × Word)) : State :=
  l.foldl (fun s p => s.setReg p.1 p.2) s

/-- The CPSR replaced by a word with a valid mode. -/
def withCpsr (s : State) (w : Word) : State :=
  match Psr.ofWord? w with
  | some p => { s with cpsr := p }
  | none => s

/-- One step with a word placed at the pc. -/
def run (s : State) (w : Nat) : Out := step (s.withFetchWord 32 w)

/-- What a test looks at in a next state. -/
def seen {α : Type} (o : Out) (f : State → α) : Option α :=
  match o with
  | .next t => some (f t)
  | .fault _ => none
  | .refused _ => none

/-- The fault of an outcome. -/
def faultOf (o : Out) : Option Fault :=
  match o with
  | .next _ => none
  | .fault f => some f
  | .refused _ => none

/-- The refusal of an outcome. -/
def refusalOf (o : Out) : Option Refusal :=
  match o with
  | .next _ => none
  | .fault _ => none
  | .refused r => some r

/-- The four flags, in the order N, Z, C, V. -/
def nzcv (s : State) : BitVec 4 :=
  BitVec.ofBool s.cpsr.n ++ BitVec.ofBool s.cpsr.z ++ BitVec.ofBool s.cpsr.c ++
    BitVec.ofBool s.cpsr.v

/-- r0 and the flags. -/
def r0Flags (s : State) : Word × BitVec 4 := (s.reg 0, nzcv s)

/-- The outcome in the record handed to the caller. -/
def reported (s : State) : Option NonOk := s.report.map (·.outcome)

/-! Decoding: one word of each row, field by field (30_encoding.md R82 to R97, R100, R104). -/

theorem test_decode_mul :
    decodeWord 0b1110_000000_0_1_0010_0000_0011_1001_0100#32 =
      .ok (.mul ⟨.al, true, 2, 0, 3, 4⟩) := by
  rfl

theorem test_decode_mla :
    decodeWord 0b0001_000000_1_0_0010_0101_0011_1001_0100#32 =
      .ok (.mla ⟨.ne, false, 2, 5, 3, 4⟩) := by
  rfl

theorem test_decode_umull :
    decodeWord 0b1110_00001_0_0_1_0001_0000_0011_1001_0010#32 =
      .ok (.umull ⟨.al, true, 1, 0, 3, 2⟩) := by
  rfl

theorem test_decode_umlal :
    decodeWord 0b1010_00001_0_1_0_0001_0000_0011_1001_0010#32 =
      .ok (.umlal ⟨.ge, false, 1, 0, 3, 2⟩) := by
  rfl

theorem test_decode_smull :
    decodeWord 0b1110_00001_1_0_1_0001_0000_0011_1001_0010#32 =
      .ok (.smull ⟨.al, true, 1, 0, 3, 2⟩) := by
  rfl

theorem test_decode_smlal :
    decodeWord 0b1110_00001_1_1_0_0001_0000_0011_1001_0010#32 =
      .ok (.smlal ⟨.al, false, 1, 0, 3, 2⟩) := by
  rfl

theorem test_decode_swp :
    decodeWord 0b1110_0001_0_0_00_0010_0000_0000_1001_0001#32 =
      .ok (.swp ⟨.al, 2, 0, 1⟩) := by
  rfl

theorem test_decode_swpb :
    decodeWord 0b1110_0001_0_1_00_0010_0000_0000_1001_0001#32 =
      .ok (.swpb ⟨.al, 2, 0, 1⟩) := by
  rfl

theorem test_decode_bx :
    decodeWord 0b1110_0001_0010_1111_1111_1111_0001_1110#32 =
      .ok (.bx ⟨.al, 14⟩) := by
  rfl

theorem test_decode_strh_reg :
    decodeWord 0b1110_000_1_1_0_0_0_0001_0000_0000_1_0_1_1_0010#32 =
      .ok (.strhReg ⟨.al, true, true, false, 1, 0, 2⟩) := by
  rfl

theorem test_decode_ldrh_reg :
    decodeWord 0b1110_000_1_0_0_1_1_0001_0000_0000_1_0_1_1_0010#32 =
      .ok (.ldrhReg ⟨.al, true, false, true, 1, 0, 2⟩) := by
  rfl

theorem test_decode_ldrsb_reg :
    decodeWord 0b1110_000_0_1_0_0_1_0001_0000_0000_1_1_0_1_0010#32 =
      .ok (.ldrsbReg ⟨.al, false, true, false, 1, 0, 2⟩) := by
  rfl

theorem test_decode_ldrsh_reg :
    decodeWord 0b1110_000_1_1_0_0_1_0001_0000_0000_1_1_1_1_0010#32 =
      .ok (.ldrshReg ⟨.al, true, true, false, 1, 0, 2⟩) := by
  rfl

theorem test_decode_hdt_reg_other :
    decodeWord 0b1110_000_1_1_0_0_0_0001_0000_0000_1_1_0_1_0010#32 =
      .ok (.hdtRegOther ⟨.al, true, true, false, false, 1, 0, true, false, 2⟩) := by
  rfl

theorem test_decode_strh_imm :
    decodeWord 0b1110_000_1_0_1_0_0_0001_0000_1010_1_0_1_1_0101#32 =
      .ok (.strhImm ⟨.al, true, false, false, 1, 0, 10#4, 5#4⟩) := by
  rfl

theorem test_decode_ldrh_imm :
    decodeWord 0b1110_000_1_1_1_0_1_0001_0000_0000_1_0_1_1_0000#32 =
      .ok (.ldrhImm ⟨.al, true, true, false, 1, 0, 0#4, 0#4⟩) := by
  rfl

theorem test_decode_ldrsb_imm :
    decodeWord 0b1110_000_0_0_1_0_1_0001_0000_0000_1_1_0_1_0011#32 =
      .ok (.ldrsbImm ⟨.al, false, false, false, 1, 0, 0#4, 3#4⟩) := by
  rfl

theorem test_decode_ldrsh_imm :
    decodeWord 0b1110_000_1_1_1_1_1_0001_0000_0001_1_1_1_1_0000#32 =
      .ok (.ldrshImm ⟨.al, true, true, true, 1, 0, 1#4, 0#4⟩) := by
  rfl

theorem test_decode_hdt_imm_other :
    decodeWord 0b1110_000_1_1_1_0_0_0001_0000_0001_1_1_1_1_0000#32 =
      .ok (.hdtImmOther ⟨.al, true, true, false, false, 1, 0, 1#4, true, true, 0#4⟩) := by
  rfl

theorem test_decode_undef :
    decodeWord 0b1110_011_00000000000000000001_1_0010#32 =
      .ok (.undef ⟨.al, 1#20, 2#4⟩) := by
  rfl

theorem test_decode_str :
    decodeWord 0b1110_01_0_1_1_0_0_0_0001_0000_000000000100#32 =
      .ok (.str ⟨.al, false, true, true, false, 1, 0, 4#12⟩) := by
  rfl

theorem test_decode_ldr :
    decodeWord 0b1110_01_1_1_1_0_0_1_0001_0000_000000000010#32 =
      .ok (.ldr ⟨.al, true, true, true, false, 1, 0, 2#12⟩) := by
  rfl

theorem test_decode_strb :
    decodeWord 0b1110_01_0_0_0_1_0_0_0001_0000_000000000001#32 =
      .ok (.strb ⟨.al, false, false, false, false, 1, 0, 1#12⟩) := by
  rfl

theorem test_decode_ldrb :
    decodeWord 0b1110_01_0_1_0_1_1_1_0001_0000_100000000000#32 =
      .ok (.ldrb ⟨.al, false, true, false, true, 1, 0, 0x800#12⟩) := by
  rfl

theorem test_decode_stm :
    decodeWord 0b1110_100_1_0_0_1_0_1101_0000000000000001#32 =
      .ok (.stm ⟨.al, true, false, false, true, 13, 1#16⟩) := by
  rfl

theorem test_decode_ldm :
    decodeWord 0b1110_100_0_1_1_0_1_1101_1000000000000000#32 =
      .ok (.ldm ⟨.al, false, true, true, false, 13, 0x8000#16⟩) := by
  rfl

theorem test_decode_b :
    decodeWord 0b0000_101_0_000000000000000000010000#32 =
      .ok (.b ⟨.eq, 16#24⟩) := by
  rfl

theorem test_decode_bl :
    decodeWord 0b1110_101_1_111111111111111111111110#32 =
      .ok (.bl ⟨.al, 0xFFFFFE#24⟩) := by
  rfl

theorem test_decode_stc :
    decodeWord 0b1110_110_1_0_1_0_0_0001_0010_0011_00000100#32 =
      .ok (.stc ⟨.al, true, false, true, false, 1, 2#4, 3#4, 4#8⟩) := by
  rfl

theorem test_decode_ldc :
    decodeWord 0b1110_110_1_1_0_0_1_0001_0000_0001_00000000#32 =
      .ok (.ldc ⟨.al, true, true, false, false, 1, 0#4, 1#4, 0#8⟩) := by
  rfl

theorem test_decode_cdp :
    decodeWord 0b1110_1110_0001_0010_0011_0100_101_0_0110#32 =
      .ok (.cdp ⟨.al, 1#4, 2#4, 3#4, 4#4, 5#3, 6#4⟩) := by
  rfl

theorem test_decode_mcr :
    decodeWord 0b1110_1110_001_0_0010_0011_0100_101_1_0110#32 =
      .ok (.mcr ⟨.al, 1#3, 2#4, 3, 4#4, 5#3, 6#4⟩) := by
  rfl

theorem test_decode_mrc :
    decodeWord 0b1110_1110_000_1_0000_0000_1111_000_1_0000#32 =
      .ok (.mrc ⟨.al, 0#3, 0#4, 0, 15#4, 0#3, 0#4⟩) := by
  rfl

theorem test_decode_swi :
    decodeWord 0b1110_1111_000100100011010001010110#32 =
      .ok (.swi ⟨.al, 0x123456#24⟩) := by
  rfl

theorem test_decode_mrs :
    decodeWord 0b1110_00010_1_00_1111_0011_000000000000#32 =
      .ok (.mrs ⟨.al, true, 3⟩) := by
  rfl

theorem test_decode_msr_reg :
    decodeWord 0b1110_00_0_10_0_10_1_0_0_1_1111_00000000_0101#32 =
      .ok (.msrReg ⟨.al, false, true, false, false, true, 0#8, 5⟩) := by
  rfl

theorem test_decode_msr_imm :
    decodeWord 0b1110_00_1_10_1_10_1_1_0_0_1111_0010_00001111#32 =
      .ok (.msrImm ⟨.al, true, true, true, false, false, 2#4, 15#8⟩) := by
  rfl

theorem test_decode_extension :
    decodeWord 0b1110_00_0_1101_0_0000_0000_1111_1_00_1_0000#32 =
      .ok (.extension ⟨.al, 13#4, false, 0, 0, 15#4, 0#2, 0#4⟩) := by
  rfl

theorem test_decode_bad_test :
    decodeWord 0b1110_00_0_1001_0_0000_0000_000001110000#32 =
      .ok (.badTest ⟨.al, false, .teq, 0, 0, 0x70#12⟩) := by
  rfl

theorem test_decode_and :
    decodeWord 0b1110_00_1_0000_1_0001_0000_0000_11111111#32 =
      .ok (.and ⟨.al, true, 1, 0, .imm 0#4 0xFF#8⟩) := by
  rfl

theorem test_decode_eor :
    decodeWord 0b1110_00_0_0001_1_0001_0000_00000_00_0_0010#32 =
      .ok (.eor ⟨.al, true, 1, 0, .shiftImm 2 .lsl 0#5⟩) := by
  rfl

theorem test_decode_sub :
    decodeWord 0b1110_00_0_0010_0_0001_0000_0011_0_01_1_0010#32 =
      .ok (.sub ⟨.al, false, 1, 0, .shiftReg 2 .lsr 3⟩) := by
  rfl

theorem test_decode_rsb :
    decodeWord 0b1110_00_1_0011_1_0001_0000_0000_00000000#32 =
      .ok (.rsb ⟨.al, true, 1, 0, .imm 0#4 0#8⟩) := by
  rfl

theorem test_decode_add :
    decodeWord 0b1110_00_0_0100_0_1111_0000_0011_0_00_1_0010#32 =
      .ok (.add ⟨.al, false, 15, 0, .shiftReg 2 .lsl 3⟩) := by
  rfl

theorem test_decode_adc :
    decodeWord 0b1110_00_0_0101_1_0001_0000_00000_00_0_0010#32 =
      .ok (.adc ⟨.al, true, 1, 0, .shiftImm 2 .lsl 0#5⟩) := by
  rfl

theorem test_decode_sbc :
    decodeWord 0b1110_00_0_0110_1_0001_0000_00011_10_0_0010#32 =
      .ok (.sbc ⟨.al, true, 1, 0, .shiftImm 2 .asr 3#5⟩) := by
  rfl

theorem test_decode_rsc :
    decodeWord 0b1110_00_0_0111_1_0001_0000_11111_11_0_0010#32 =
      .ok (.rsc ⟨.al, true, 1, 0, .shiftImm 2 .ror 31#5⟩) := by
  rfl

theorem test_decode_tst :
    decodeWord 0b1110_00_1_1000_1_0001_0000_0001_00000010#32 =
      .ok (.tst ⟨.al, 1, 0, .imm 1#4 2#8⟩) := by
  rfl

theorem test_decode_teq :
    decodeWord 0b1110_00_0_1001_1_0001_0000_00000_00_0_0010#32 =
      .ok (.teq ⟨.al, 1, 0, .shiftImm 2 .lsl 0#5⟩) := by
  rfl

theorem test_decode_cmp :
    decodeWord 0b1110_00_0_1010_1_0001_1111_00000_00_0_0010#32 =
      .ok (.cmp ⟨.al, 1, 15, .shiftImm 2 .lsl 0#5⟩) := by
  rfl

theorem test_decode_cmn :
    decodeWord 0b1110_00_0_1011_1_0001_0000_0011_0_11_1_0010#32 =
      .ok (.cmn ⟨.al, 1, 0, .shiftReg 2 .ror 3⟩) := by
  rfl

theorem test_decode_orr :
    decodeWord 0b1110_00_0_1100_1_0001_0000_00100_00_0_0010#32 =
      .ok (.orr ⟨.al, true, 1, 0, .shiftImm 2 .lsl 4#5⟩) := by
  rfl

theorem test_decode_mov :
    decodeWord 0b1110_00_0_1101_1_0000_1111_00000_00_0_1110#32 =
      .ok (.mov ⟨.al, true, 0, 15, .shiftImm 14 .lsl 0#5⟩) := by
  rfl

theorem test_decode_bic :
    decodeWord 0b1110_00_1_1110_1_0001_0000_0000_11111111#32 =
      .ok (.bic ⟨.al, true, 1, 0, .imm 0#4 0xFF#8⟩) := by
  rfl

theorem test_decode_mvn :
    decodeWord 0b1110_00_1_1111_1_0000_0000_0000_00000000#32 =
      .ok (.mvn ⟨.al, true, 0, 0, .imm 0#4 0#8⟩) := by
  rfl

/-- Condition `1111` is a condition like the others to the decoder; the block traps it (R104). -/
theorem test_decode_reserved_condition :
    decodeWord 0xF0000000#32 = .ok (.and ⟨.reserved, false, 0, 0, .shiftImm 0 .lsl 0#5⟩) := by
  rfl

/-- The table's numbering of an instruction is the word itself. -/
theorem test_decode_table_word :
    decodeTableWord 32 0xE1A00000 = some (.mov ⟨.al, false, 0, 0, .shiftImm 0 .lsl 0#5⟩) := by
  decide

/-- FETCH_ENDIAN = big: the first byte is the most significant (20_memory.md R66). -/
theorem test_decode_big_endian :
    decodeBytes .big [0xE1#8, 0xA0#8, 0x00#8, 0x00#8] =
      .ok (.mov ⟨.al, false, 0, 0, .shiftImm 0 .lsl 0#5⟩, []) := by
  rfl

/-! WellFormed: an ill-formed term for each check, which the check refuses (30_encoding.md R103,
R104). Each is the reading a row of lower priority would give a word another row takes. -/

/-- Ill-formed: it is LDRSB. -/
theorem test_ill_formed_hdt_reg_other_load_signed :
    Instr.wf (.hdtRegOther ⟨.al, true, true, false, true, 1, 0, true, false, 2⟩) = false := by
  decide

/-- Ill-formed: it is STRH. -/
theorem test_ill_formed_hdt_reg_other_halfword :
    Instr.wf (.hdtRegOther ⟨.al, true, true, false, false, 1, 0, false, true, 2⟩) = false := by
  decide

/-- Ill-formed: it is a multiply. -/
theorem test_ill_formed_hdt_reg_other_multiply :
    Instr.wf (.hdtRegOther ⟨.al, false, false, false, false, 1, 0, false, false, 2⟩) = false := by
  decide

/-- Ill-formed: it is SWP. -/
theorem test_ill_formed_hdt_reg_other_swap :
    Instr.wf (.hdtRegOther ⟨.al, true, false, false, false, 1, 0, false, false, 2⟩) = false := by
  decide

/-- Ill-formed: it is LDRSB. -/
theorem test_ill_formed_hdt_imm_other_load_signed :
    Instr.wf (.hdtImmOther ⟨.al, true, true, false, true, 1, 0, 0#4, true, false, 2#4⟩) = false := by
  decide

/-- Ill-formed: it is a long multiply. -/
theorem test_ill_formed_hdt_imm_other_multiply :
    Instr.wf (.hdtImmOther ⟨.al, false, true, false, false, 1, 0, 0#4, false, false, 2#4⟩) = false := by
  decide

/-- Ill-formed: it is SWPB. -/
theorem test_ill_formed_hdt_imm_other_swap :
    Instr.wf (.hdtImmOther ⟨.al, true, false, false, false, 1, 0, 0#4, false, false, 2#4⟩) = false := by
  decide

/-- Ill-formed: bit 4 puts it in the Undefined class. -/
theorem test_ill_formed_str_undefined_class :
    Instr.wf (.str ⟨.al, true, true, true, false, 1, 0, 0x10#12⟩) = false := by
  decide

/-- Ill-formed: as STR. -/
theorem test_ill_formed_ldr_undefined_class :
    Instr.wf (.ldr ⟨.al, true, true, true, false, 1, 0, 0x10#12⟩) = false := by
  decide

/-- Ill-formed: as STR. -/
theorem test_ill_formed_strb_undefined_class :
    Instr.wf (.strb ⟨.al, true, true, true, false, 1, 0, 0x10#12⟩) = false := by
  decide

/-- Ill-formed: as STR. -/
theorem test_ill_formed_ldrb_undefined_class :
    Instr.wf (.ldrb ⟨.al, true, true, true, false, 1, 0, 0x10#12⟩) = false := by
  decide

/-- Ill-formed: it is BX. -/
theorem test_ill_formed_msr_bx :
    Instr.wf (.msrReg ⟨.al, false, true, true, true, true, 0xF1#8, 0⟩) = false := by
  decide

/-- Ill-formed: it is a halfword transfer. -/
theorem test_ill_formed_msr_halfword :
    Instr.wf (.msrReg ⟨.al, false, true, false, false, true, 0x09#8, 0⟩) = false := by
  decide

/-- Ill-formed: it is a multiply. -/
theorem test_ill_formed_extension_multiply :
    Instr.wf (.extension ⟨.al, 0#4, false, 0, 0, 1#4, 0#2, 0#4⟩) = false := by
  decide

/-- Ill-formed: it is a halfword transfer. -/
theorem test_ill_formed_extension_halfword :
    Instr.wf (.extension ⟨.al, 0#4, false, 0, 0, 0#4, 1#2, 0#4⟩) = false := by
  decide

/-- Ill-formed: bit 22 puts it in the halfword class. -/
theorem test_ill_formed_extension_halfword_imm :
    Instr.wf (.extension ⟨.al, 2#4, false, 0, 0, 1#4, 1#2, 0#4⟩) = false := by
  decide

/-- Ill-formed: it is MSR. -/
theorem test_ill_formed_extension_msr :
    Instr.wf (.extension ⟨.al, 9#4, false, 0, 15, 1#4, 0#2, 0#4⟩) = false := by
  decide

/-- Ill-formed: it is the extension space. -/
theorem test_ill_formed_bad_test_extension :
    Instr.wf (.badTest ⟨.al, false, .tst, 0, 0, 0xF90#12⟩) = false := by
  decide

/-- Ill-formed: it is MRS. -/
theorem test_ill_formed_bad_test_mrs :
    Instr.wf (.badTest ⟨.al, false, .tst, 15, 3, 0#12⟩) = false := by
  decide

/-- Ill-formed: it is MSR. -/
theorem test_ill_formed_bad_test_msr :
    Instr.wf (.badTest ⟨.al, true, .teq, 8, 15, 0#12⟩) = false := by
  decide

/-! One step each, from the examples of the rules and the vectors of 95_test_vectors.md. -/

/-- V1: rotate 0 keeps C, a logical operation keeps V. -/
theorem test_and_keeps_cv :
    seen (run (withRegs (at100 .usr 0b0011#4) [(1, 0xFFFFFFFF#32)]) 0xE2110000)
      r0Flags = some (0#32, 0b0111#4) := by
  decide

/-- V1. -/
theorem test_and :
    seen (run (withRegs (at100 .usr 0b0000#4) [(1, 0xF0F0F0F0#32), (2, 0x0FF00FF0#32)]) 0xE0110002)
      r0Flags = some (0x00F000F0#32, 0b0000#4) := by
  decide

/-- V1. -/
theorem test_eor :
    seen (run (withRegs (at100 .usr 0b0000#4) [(1, 0xA5A5A5A5#32), (2, 0xA5A5A5A5#32)]) 0xE0310002)
      r0Flags = some (0#32, 0b0100#4) := by
  decide

/-- S3: 0 - 1. -/
theorem test_sub_borrow :
    seen (run (withRegs (at100 .usr 0b0000#4) [(1, 0#32), (2, 1#32)]) 0xE0510002)
      r0Flags = some (0xFFFFFFFF#32, 0b1000#4) := by
  decide

/-- V1: signed overflow without borrow. -/
theorem test_sub_overflow :
    seen (run (withRegs (at100 .usr 0b0000#4) [(1, 0x80000000#32)]) 0xE2510001)
      r0Flags = some (0x7FFFFFFF#32, 0b0011#4) := by
  decide

/-- V1. -/
theorem test_rsb :
    seen (run (withRegs (at100 .usr 0b0000#4) [(1, 0x80000000#32)]) 0xE2710000)
      r0Flags = some (0x80000000#32, 0b1001#4) := by
  decide

/-- R163: 0 - 1. -/
theorem test_rsb_one :
    seen (run (withRegs (at100 .usr 0b0000#4) [(1, 1#32)]) 0xE2710000)
      r0Flags = some (0xFFFFFFFF#32, 0b1000#4) := by
  decide

/-- S3. -/
theorem test_add_overflow :
    seen (run (withRegs (at100 .usr 0b0000#4) [(1, 0x7FFFFFFF#32), (2, 1#32)]) 0xE0910002)
      r0Flags = some (0x80000000#32, 0b1001#4) := by
  decide

/-- V1: carry without overflow. -/
theorem test_add_carry :
    seen (run (withRegs (at100 .usr 0b0000#4) [(1, 0xFFFFFFFF#32), (2, 1#32)]) 0xE0910002)
      r0Flags = some (0#32, 0b0110#4) := by
  decide

/-- V1. -/
theorem test_adc_carry_in :
    seen (run (withRegs (at100 .usr 0b0010#4) [(1, 0xFFFFFFFF#32), (2, 0#32)]) 0xE0B10002)
      r0Flags = some (0#32, 0b0110#4) := by
  decide

/-- V1. -/
theorem test_adc_overflow :
    seen (run (withRegs (at100 .usr 0b0010#4) [(1, 0x7FFFFFFF#32), (2, 0#32)]) 0xE0B10002)
      r0Flags = some (0x80000000#32, 0b1001#4) := by
  decide

/-- V1: C = 0 takes one more. -/
theorem test_sbc :
    seen (run (withRegs (at100 .usr 0b0000#4) [(1, 5#32), (2, 3#32)]) 0xE0D10002)
      r0Flags = some (1#32, 0b0010#4) := by
  decide

/-- V1. -/
theorem test_sbc_borrow :
    seen (run (withRegs (at100 .usr 0b0000#4) [(1, 0#32), (2, 0#32)]) 0xE0D10002)
      r0Flags = some (0xFFFFFFFF#32, 0b1000#4) := by
  decide

/-- V1. -/
theorem test_rsc :
    seen (run (withRegs (at100 .usr 0b0000#4) [(1, 3#32), (2, 5#32)]) 0xE0F10002)
      r0Flags = some (1#32, 0b0010#4) := by
  decide

/-- V1. -/
theorem test_rsc_zero :
    seen (run (withRegs (at100 .usr 0b0010#4) [(1, 0#32), (2, 0#32)]) 0xE0F10002)
      r0Flags = some (0#32, 0b0110#4) := by
  decide

/-- V1: C from the rotated immediate; r0 is untouched. -/
theorem test_tst :
    seen (run (withRegs (at100 .usr 0b0000#4) [(0, 0x12345678#32), (1, 0x80000000#32)]) 0xE3110102)
      r0Flags = some (0x12345678#32, 0b1010#4) := by
  decide

/-- V1: C and V kept. -/
theorem test_teq :
    seen (run (withRegs (at100 .usr 0b0011#4) [(0, 0x12345678#32), (1, 5#32), (2, 5#32)]) 0xE1310002)
      r0Flags = some (0x12345678#32, 0b0111#4) := by
  decide

/-- V1. -/
theorem test_cmp :
    seen (run (withRegs (at100 .usr 0b0000#4) [(0, 0x12345678#32), (1, 0x7FFFFFFF#32), (2, 0xFFFFFFFF#32)]) 0xE1510002)
      r0Flags = some (0x12345678#32, 0b1001#4) := by
  decide

/-- V1: Rd = 15 in CMP is no return and no jump. -/
theorem test_cmp_rd_fifteen :
    seen (run (withRegs (at100 .usr 0b0000#4) [(1, 1#32), (2, 1#32)]) 0xE151F002)
      (fun t => (nzcv t, t.pc)) = some (0b0110#4, 0x104#32) := by
  decide

/-- V1. -/
theorem test_cmn :
    seen (run (withRegs (at100 .usr 0b0000#4) [(0, 0x12345678#32), (1, 0x7FFFFFFF#32), (2, 1#32)]) 0xE1710002)
      r0Flags = some (0x12345678#32, 0b1001#4) := by
  decide

/-- S4. -/
theorem test_cmn_carry :
    seen (run (withRegs (at100 .usr 0b0000#4) [(1, 1#32), (2, 0xFFFFFFFF#32)]) 0xE1710002)
      r0Flags = some (0#32, 0b0110#4) := by
  decide

/-- V1: the carry is bit 28 of r2. -/
theorem test_orr :
    seen (run (withRegs (at100 .usr 0b0000#4) [(1, 0xF#32), (2, 0x1000000F#32)]) 0xE1910202)
      r0Flags = some (0x000000FF#32, 0b0010#4) := by
  decide

/-- V1. -/
theorem test_mov_rrx :
    seen (run (withRegs (at100 .usr 0b0010#4) [(1, 1#32)]) 0xE1B00061)
      r0Flags = some (0x80000000#32, 0b1010#4) := by
  decide

/-- V1. -/
theorem test_bic :
    seen (run (withRegs (at100 .usr 0b0010#4) [(1, 0x12345678#32)]) 0xE3D100FF)
      r0Flags = some (0x12345600#32, 0b0010#4) := by
  decide

/-- V1. -/
theorem test_mvn :
    seen (run (withRegs (at100 .usr 0b0000#4) []) 0xE3F00000)
      r0Flags = some (0xFFFFFFFF#32, 0b1000#4) := by
  decide

/-- R175, R130: MVNS r0, #0xFF000000 takes C from bit 31 of the operand. -/
theorem test_mvn_rotated :
    seen (run (at100 .usr 0b0000#4) 0xE3F004FF)
      r0Flags = some (0x00FFFFFF#32, 0b0010#4) := by
  decide

/-- V1: r15 reads pc + 12 beside a register-specified shift. -/
theorem test_add_pc_register_shift :
    seen (run (at100 .usr 0b0000#4) 0xE08F0312)
      (fun t => t.reg 0) = some 0x10C#32 := by
  decide

/-- V1: MOV pc, lr. -/
theorem test_mov_pc_jumps :
    seen (run (withRegs (at100 .usr 0b0000#4) [(14, 0x2000#32)]) 0xE1A0F00E)
      (fun t => (t.pc, t.reg 14, nzcv t)) = some (0x2000#32, 0x2000#32, 0b0000#4) := by
  decide

/-- V1: return from IRQ mode. -/
theorem test_movs_pc_returns :
    seen (run ({ withRegs (at100 .irq 0b0000#4) [(14, 0x2000#32)] with
      spsrs := State.reset.spsrs.write .irq 0x60000010#32 }) 0xE1B0F00E)
      (fun t => (t.pc, t.cpsr.toWord)) = some (0x2000#32, 0x60000010#32) := by
  decide

/-- V1: no SPSR in User mode. -/
theorem test_movs_pc_user_traps :
    seen (run (at100 .usr 0b0000#4) 0xE1B0F00E)
      reported = some (some (.undefinedInstruction .returnWithoutSpsr)) := by
  decide

/-- V1: an SPSR with no valid mode; the SPSRs are zero. -/
theorem test_movs_pc_invalid_mode :
    faultOf (run (at100 .svc 0#4) 0xE1B0F00E) = some (.unpredictable .invalidMode) := by
  decide

/-- V1: MOV r0, r1, LSL pc. -/
theorem test_shift_by_pc_traps :
    seen (run (at100 .usr 0#4) 0xE1A00F11) reported =
      some (some (.undefinedInstruction .pcOperandDisallowed)) := by
  decide

/-- V1: MOV with a nonzero Rn field, under STRICT_UNPREDICTABLE. -/
theorem test_strict_mov_sbz :
    faultOf (run strictAt100 0xE1A20001) = some (.unpredictable .shouldBeZero) := by
  decide

/-- V1: r15 as Rn beside a register-specified shift, under STRICT_UNPREDICTABLE. -/
theorem test_strict_pc_in_shift :
    faultOf (run strictAt100 0xE08F0211) = some (.unpredictable .pcInRegisterShift) := by
  decide

/-- V1: the extension space. -/
theorem test_extension_faults :
    faultOf (run (at100 .usr 0#4) 0xE1A00F90) = some (.unpredictable .extensionSpace) := by
  decide

/-- V1: TST with S = 0. -/
theorem test_bad_test_traps :
    seen (run (at100 .usr 0#4) 0xE1010002) reported =
      some (some (.undefinedInstruction .malformedTestOp)) := by
  decide

/-! The shifter, S2: amounts 0, 1, 31, 32, 33 on 0x80000001. -/

theorem test_shift_lsl :
    shiftByReg .lsl 0x80000001#32 0#8 false = ⟨0x80000001#32, false⟩ ∧
    shiftByReg .lsl 0x80000001#32 1#8 false = ⟨0x00000002#32, true⟩ ∧
    shiftByReg .lsl 0x80000001#32 31#8 false = ⟨0x80000000#32, false⟩ ∧
    shiftByReg .lsl 0x80000001#32 32#8 false = ⟨0#32, true⟩ ∧
    shiftByReg .lsl 0x80000001#32 33#8 false = ⟨0#32, false⟩ := by
  decide

theorem test_shift_lsr :
    shiftByReg .lsr 0x80000001#32 0#8 true = ⟨0x80000001#32, true⟩ ∧
    shiftByReg .lsr 0x80000001#32 1#8 false = ⟨0x40000000#32, true⟩ ∧
    shiftByReg .lsr 0x80000001#32 31#8 false = ⟨1#32, false⟩ ∧
    shiftByReg .lsr 0x80000001#32 32#8 false = ⟨0#32, true⟩ ∧
    shiftByReg .lsr 0x80000001#32 33#8 false = ⟨0#32, false⟩ := by
  decide

theorem test_shift_asr :
    shiftByReg .asr 0x80000001#32 0#8 true = ⟨0x80000001#32, true⟩ ∧
    shiftByReg .asr 0x80000001#32 1#8 false = ⟨0xC0000000#32, true⟩ ∧
    shiftByReg .asr 0x80000001#32 31#8 false = ⟨0xFFFFFFFF#32, false⟩ ∧
    shiftByReg .asr 0x80000001#32 32#8 false = ⟨0xFFFFFFFF#32, true⟩ ∧
    shiftByReg .asr 0x80000001#32 33#8 false = ⟨0xFFFFFFFF#32, true⟩ := by
  decide

theorem test_shift_ror :
    shiftByReg .ror 0x80000001#32 0#8 true = ⟨0x80000001#32, true⟩ ∧
    shiftByReg .ror 0x80000001#32 1#8 false = ⟨0xC0000000#32, true⟩ ∧
    shiftByReg .ror 0x80000001#32 31#8 false = ⟨3#32, false⟩ ∧
    shiftByReg .ror 0x80000001#32 32#8 false = ⟨0x80000001#32, true⟩ ∧
    shiftByReg .ror 0x80000001#32 33#8 false = ⟨0xC0000000#32, true⟩ := by
  decide

theorem test_shift_immediate_zero :
    shiftByImm .lsl 0x80000001#32 0#5 true = ⟨0x80000001#32, true⟩ ∧
    shiftByImm .lsr 0x80000001#32 0#5 false = ⟨0#32, true⟩ ∧
    shiftByImm .asr 0x80000001#32 0#5 false = ⟨0xFFFFFFFF#32, true⟩ ∧
    shiftByImm .ror 0x80000001#32 0#5 true = ⟨0xC0000000#32, true⟩ := by
  decide

/-! Multiply, V2 and S5. -/

/-- S5. -/
theorem test_mul_keeps_cv :
    seen (run (withRegs (at100 .usr 0b0011#4) [(1, 0x10000#32), (2, 0x10000#32)]) 0xE0100291)
      r0Flags = some (0#32, 0b0111#4) := by
  decide

/-- V2: Rd = Rs, operands read first. -/
theorem test_mul_rd_rs :
    seen (run (withRegs (at100 .usr 0b0000#4) [(2, 5#32), (3, 6#32)]) 0xE0020293)
      (fun t => t.reg 2) = some 30#32 := by
  decide

/-- V2: Rd = Rn. -/
theorem test_mla_rd_rn :
    seen (run (withRegs (at100 .usr 0b0000#4) [(0, 10#32), (1, 3#32), (2, 4#32)]) 0xE0200291)
      r0Flags = some (22#32, 0b0000#4) := by
  decide

/-- V2. -/
theorem test_mla :
    seen (run (withRegs (at100 .usr 0b0011#4) [(1, 0xFFFFFFFF#32), (2, 1#32), (3, 1#32)]) 0xE0303291)
      r0Flags = some (0#32, 0b0111#4) := by
  decide

/-- V2. -/
theorem test_umull :
    seen (run (withRegs (at100 .usr 0b0000#4) [(2, 0xFFFFFFFF#32), (3, 0xFFFFFFFF#32)]) 0xE0810392)
      (fun t => (t.reg 0, t.reg 1, nzcv t)) = some (1#32, 0xFFFFFFFE#32, 0b0000#4) := by
  decide

/-- V2: operands read first. -/
theorem test_umull_rs_rdlo :
    seen (run (withRegs (at100 .usr 0b0000#4) [(0, 3#32), (2, 4#32)]) 0xE0810092)
      (fun t => (t.reg 0, t.reg 1, nzcv t)) = some (12#32, 0#32, 0b0000#4) := by
  decide

/-- V2. -/
theorem test_umlal :
    seen (run (withRegs (at100 .usr 0b0000#4) [(0, 0xFFFFFFFF#32), (1, 1#32), (2, 1#32), (3, 1#32)]) 0xE0B10392)
      (fun t => (t.reg 0, t.reg 1, nzcv t)) = some (0#32, 2#32, 0b0000#4) := by
  decide

/-- V2. -/
theorem test_umlal_wraps :
    seen (run (withRegs (at100 .usr 0b0000#4) [(0, 0xFFFFFFFF#32), (1, 0xFFFFFFFF#32), (2, 1#32), (3, 1#32)]) 0xE0A10392)
      (fun t => (t.reg 0, t.reg 1, nzcv t)) = some (0#32, 0#32, 0b0000#4) := by
  decide

/-- V2. -/
theorem test_smull :
    seen (run (withRegs (at100 .usr 0b0000#4) [(2, 0xFFFFFFFE#32), (3, 3#32)]) 0xE0D10392)
      (fun t => (t.reg 0, t.reg 1, nzcv t)) = some (0xFFFFFFFA#32, 0xFFFFFFFF#32, 0b1000#4) := by
  decide

/-- V2. -/
theorem test_smull_min :
    seen (run (withRegs (at100 .usr 0b0000#4) [(2, 0x80000000#32), (3, 0x80000000#32)]) 0xE0C10392)
      (fun t => (t.reg 0, t.reg 1, nzcv t)) = some (0#32, 0x40000000#32, 0b0000#4) := by
  decide

/-- V2. -/
theorem test_smlal :
    seen (run (withRegs (at100 .usr 0b0000#4) [(0, 0#32), (1, 0#32), (2, 0xFFFFFFFF#32), (3, 1#32)]) 0xE0F10392)
      (fun t => (t.reg 0, t.reg 1, nzcv t)) = some (0xFFFFFFFF#32, 0xFFFFFFFF#32, 0b1000#4) := by
  decide

/-- V2. -/
theorem test_smlal_zero :
    seen (run (withRegs (at100 .usr 0b0000#4) [(0, 1#32), (1, 0#32), (2, 0xFFFFFFFF#32), (3, 1#32)]) 0xE0E10392)
      (fun t => (t.reg 0, t.reg 1, nzcv t)) = some (0#32, 0#32, 0b0000#4) := by
  decide

/-- V2: Rd = Rm, the long forms' overlap, and r15. -/
theorem test_multiply_restrictions :
    seen (run (at100 .usr 0#4) 0xE0000190) reported =
      some (some (.undefinedInstruction .multiplyRegisterConflict)) ∧
    seen (run (at100 .usr 0#4) 0xE0810390) reported =
      some (some (.undefinedInstruction .multiplyRegisterConflict)) ∧
    seen (run (at100 .usr 0#4) 0xE020F291) reported =
      some (some (.undefinedInstruction .pcOperandDisallowed)) := by
  decide

/-! PSR transfer, V3 and S8. -/

/-- V3. -/
theorem test_mrs_cpsr :
    seen (run (withCpsr (at100 .svc 0#4) 0x600000D3#32) 0xE10F0000)
      (fun t => t.reg 0) = some 0x600000D3#32 := by
  decide

/-- V3. -/
theorem test_mrs_spsr :
    seen (run ({ withCpsr (at100 .irq 0#4) 0xD2#32 with
      spsrs := State.reset.spsrs.write .irq 0x20000010#32 }) 0xE14F0000)
      (fun t => t.reg 0) = some 0x20000010#32 := by
  decide

/-- V3: to IRQ mode, flags and control. -/
theorem test_msr_reg_control :
    seen (run (withCpsr (withRegs (at100 .svc 0#4) [(0, 0xA00000D2#32)]) 0xD3#32) 0xE129F000)
      (fun t => t.cpsr.toWord) = some 0xA00000D2#32 := by
  decide

/-- V3: M is not checked in an SPSR. -/
theorem test_msr_reg_spsr :
    seen (run (withCpsr (withRegs (at100 .svc 0#4) [(0, 0xF00000FF#32)]) 0xD3#32) 0xE169F000)
      (fun t => (t.spsrs.svc, t.cpsr.toWord)) = some (0xF00000FF#32, 0xD3#32) := by
  decide

/-- S8. -/
theorem test_msr_imm_flags :
    seen (run (withCpsr (at100 .usr 0#4) 0xF0000010#32) 0xE328F101)
      (fun t => t.cpsr.toWord) = some 0x40000010#32 := by
  decide

/-- S8. -/
theorem test_msr_imm_control_traps :
    seen (run (withCpsr (at100 .svc 0#4) 0xD3#32) 0xE321F01F)
      reported = some (some (.undefinedInstruction .msrImmediateControl)) := by
  decide

/-- V3: an invalid mode, and a change of T under STRICT_UNPREDICTABLE. -/
theorem test_msr_faults :
    faultOf (run (withCpsr (withRegs (at100 .svc 0#4) [(0, 0xD4#32)]) 0xD3#32) 0xE121F000) =
      some (.unpredictable .invalidMode) ∧
    faultOf (run (withCpsr { withRegs (at100 .svc 0#4) [(0, 0xF3#32)] with
      cfg := strictAt100.cfg } 0xD3#32) 0xE121F000) = some (.unpredictable .tBitWrite) := by
  decide

/-! Branches, V4, S6, S7. -/

/-- V4: the top of memory. -/
theorem test_b_wraps :
    seen (run ({ at100 .usr 0#4 with pc := 0xFFFFFFFC#32 }) 0xEA000000)
      (fun t => t.pc) = some 4#32 := by
  decide

/-- V4. -/
theorem test_b_most_negative :
    seen (run ({ at100 .usr 0#4 with pc := 0x02000000#32 }) 0xEA800000)
      (fun t => t.pc) = some 8#32 := by
  decide

/-- V4: the link goes to the bank of the mode. -/
theorem test_bl_irq :
    seen (run ({ withCpsr (withRegs (at100 .usr 0#4) [(14, 0x55#32)]) 0x92#32 with pc := 0x300#32 }) 0xEB000010)
      (fun t => (t.pc, t.reg 14, t.regs.read (.lr .usr))) = some (0x348#32, 0x304#32, 0x55#32) := by
  decide

/-- V4: BLEQ. -/
theorem test_bl_not_taken :
    seen (run ({ withRegs (at100 .usr 0#4) [(14, 0x55#32)] with pc := 0x300#32 }) 0x0B000010)
      (fun t => (t.pc, t.reg 14)) = some (0x304#32, 0x55#32) := by
  decide

/-- S7. -/
theorem test_bx_thumb :
    seen (run (withRegs (at100 .usr 0#4) [(0, 0x8001#32)]) 0xE12FFF10)
      (fun t => (t.pc, t.cpsr.toWord)) = some (0x8000#32, 0x30#32) := by
  decide

/-- V4: r15 reads pc + 8. -/
theorem test_bx_pc :
    seen (run (at100 .usr 0#4) 0xE12FFF1F)
      (fun t => (t.pc, t.cpsr.t)) = some (0x108#32, false) := by
  decide

/-! The trapping and the refused classes, V5 and V6. -/

/-- V6: SWI under report. -/
theorem test_swi_reported :
    seen (run ({ withCpsr (at100 .usr 0#4) 0x80000010#32 with pc := 0x1000#32 }) 0xEF000012)
      (fun t => (t.run, t.cpsr.toWord, t.report)) = some (.stopped, 0x80000010#32,
        some ⟨.softwareInterrupt 0x12#24, 0x1000#32, some 0xEF000012#32⟩) := by
  decide

/-- V6: SWI under apply. -/
theorem test_swi_entered :
    seen (run (withCpsr (at1000 .usr 0#4) 0x80000010#32) 0xEF000012)
      (fun t => (t.pc, t.cpsr.toWord, t.reg 14, t.spsrs.svc)) = some (0x08#32, 0x80000093#32, 0x1004#32, 0x80000010#32) := by
  decide

/-- V6. -/
theorem test_undef_entered :
    seen (run (withCpsr (at1000 .usr 0#4) 0x60000010#32) 0xE6000010)
      (fun t => (t.pc, t.cpsr.toWord, t.reg 14, t.spsrs.und)) = some (0x04#32, 0x6000009B#32, 0x1004#32, 0x60000010#32) := by
  decide

/-- V6: condition 1111 in Supervisor mode. -/
theorem test_reserved_condition_entered :
    seen (run (withCpsr (at1000 .svc 0#4) 0x53#32) 0xF0000000)
      (fun t => (t.pc, t.cpsr.toWord, t.reg 14, t.spsrs.und)) = some (0x04#32, 0xDB#32, 0x1004#32, 0x53#32) := by
  decide

/-- V5. -/
theorem test_cdp_traps :
    seen (run (at100 .usr 0#4) 0xEE000000)
      reported = some (some (.undefinedInstruction .noCoprocessor)) := by
  decide

/-- V5. -/
theorem test_mrc_traps :
    seen (run (at100 .usr 0#4) 0xEE100F10)
      reported = some (some (.undefinedInstruction .noCoprocessor)) := by
  decide

/-- V5. -/
theorem test_ldc_traps :
    seen (run (at100 .usr 0#4) 0xED910100)
      reported = some (some (.undefinedInstruction .noCoprocessor)) := by
  decide

/-- 46_dispatch.md R248. -/
theorem test_mcr_traps :
    seen (run (at100 .usr 0#4) 0xEE000F10)
      reported = some (some (.undefinedInstruction .noCoprocessor)) := by
  decide

/-- 46_dispatch.md R248. -/
theorem test_stc_traps :
    seen (run (at100 .usr 0#4) 0xED810100)
      reported = some (some (.undefinedInstruction .noCoprocessor)) := by
  decide

theorem test_ldr_refused :
    refusalOf (run (at100 .usr 0#4) 0xE5910000) = some (.memoryClass .singleDataTransfer) := by
  decide

theorem test_str_refused :
    refusalOf (run (at100 .usr 0#4) 0xE5810000) = some (.memoryClass .singleDataTransfer) := by
  decide

theorem test_ldrb_refused :
    refusalOf (run (at100 .usr 0#4) 0xE5D10000) = some (.memoryClass .singleDataTransfer) := by
  decide

theorem test_strb_refused :
    refusalOf (run (at100 .usr 0#4) 0xE5C10000) = some (.memoryClass .singleDataTransfer) := by
  decide

theorem test_stm_refused :
    refusalOf (run (at100 .usr 0#4) 0xE92D0001) = some (.memoryClass .blockDataTransfer) := by
  decide

theorem test_ldm_refused :
    refusalOf (run (at100 .usr 0#4) 0xE8BD8000) = some (.memoryClass .blockDataTransfer) := by
  decide

theorem test_swp_refused :
    refusalOf (run (at100 .usr 0#4) 0xE1020091) = some (.memoryClass .singleDataSwap) := by
  decide

theorem test_swpb_refused :
    refusalOf (run (at100 .usr 0#4) 0xE1420091) = some (.memoryClass .singleDataSwap) := by
  decide

theorem test_ldrh_imm_refused :
    refusalOf (run (at100 .usr 0#4) 0xE1D100B0) = some (.memoryClass .halfwordTransferImmediate) := by
  decide

theorem test_strh_imm_refused :
    refusalOf (run (at100 .usr 0#4) 0xE1C100B0) = some (.memoryClass .halfwordTransferImmediate) := by
  decide

theorem test_ldrsb_imm_refused :
    refusalOf (run (at100 .usr 0#4) 0xE1D100D0) = some (.memoryClass .halfwordTransferImmediate) := by
  decide

theorem test_ldrsh_imm_refused :
    refusalOf (run (at100 .usr 0#4) 0xE1D100F0) = some (.memoryClass .halfwordTransferImmediate) := by
  decide

theorem test_hdt_imm_other_refused :
    refusalOf (run (at100 .usr 0#4) 0xE1C100F0) = some (.memoryClass .halfwordTransferImmediate) := by
  decide

theorem test_strh_reg_refused :
    refusalOf (run (at100 .usr 0#4) 0xE18100B2) = some (.memoryClass .halfwordTransferRegister) := by
  decide

theorem test_ldrh_reg_refused :
    refusalOf (run (at100 .usr 0#4) 0xE19100B2) = some (.memoryClass .halfwordTransferRegister) := by
  decide

theorem test_ldrsb_reg_refused :
    refusalOf (run (at100 .usr 0#4) 0xE19100D2) = some (.memoryClass .halfwordTransferRegister) := by
  decide

theorem test_ldrsh_reg_refused :
    refusalOf (run (at100 .usr 0#4) 0xE19100F2) = some (.memoryClass .halfwordTransferRegister) := by
  decide

theorem test_hdt_reg_other_refused :
    refusalOf (run (at100 .usr 0#4) 0xE18100D2) = some (.memoryClass .halfwordTransferRegister) := by
  decide

/-- V5: LDRNE with Z = 1 is skipped, not refused. -/
theorem test_skipped_ldr :
    seen (run (at100 .usr 0b0100#4) 0x15910000)
      (fun t => (t.pc, t.run)) = some (0x104#32, .running) := by
  decide

/-! The step around the instruction, V5 and V6. -/

/-- V5: T = 1, a misaligned pc, and a fetch that faults. -/
theorem test_stops_before_execution :
    refusalOf (run (withCpsr (at100 .usr 0#4) 0x30#32) 0xE1A00000) = some .thumbState ∧
    faultOf (run { at100 .usr 0#4 with pc := 0x102#32 } 0xE1A00000) =
      some (.unpredictable .misalignedPC) ∧
    faultOf (step { at100 .usr 0#4 with pc := 0x1000#32 }) =
      some (.fetchFault 0x1000#32) := by
  decide

/-- V5: the pc at the top of memory. -/
theorem test_nop_wraps :
    seen (run ({ at100 .usr 0#4 with pc := 0xFFFFFFFC#32 }) 0xE1A00000)
      (fun t => t.pc) = some 0#32 := by
  decide

/-- FETCH_ENDIAN = big: the word placed is the word fetched (20_memory.md R66). -/
theorem test_big_endian_fetch :
    seen (run ({ at100 .usr 0#4 with cfg := { Config.default with fetchEndian := .big } }) 0xE3A00005)
      (fun t => (t.reg 0, t.ir, t.mem.readByte 0x100)) = some (5#32, 0xE3A00005#32, some 0xE3#8) := by
  decide

/-- V6: IRQ first in Thumb state; T is cleared in the CPSR and saved in the SPSR. -/
theorem test_irq_in_thumb :
    seen (run ({ withCpsr (at1000 .usr 0#4) 0x30#32 with irqReq := true }) 0xE1A00000)
      (fun t => (t.pc, t.cpsr.toWord, t.reg 14, t.spsrs.irq)) = some (0x18#32, 0x92#32, 0x1004#32, 0x30#32) := by
  decide

/-- V6. -/
theorem test_fiq_before_irq :
    seen (run ({ at1000 .usr 0#4 with irqReq := true, fiqReq := true }) 0xE1A00000)
      (fun t => (t.pc, t.cpsr.toWord, t.reg 14, t.spsrs.fiq)) = some (0x1C#32, 0xD1#32, 0x1004#32, 0x10#32) := by
  decide

/-- V6: I = 1. -/
theorem test_irq_masked :
    seen (run ({ withCpsr (at1000 .usr 0#4) 0x90#32 with irqReq := true }) 0xE1A00000)
      (fun t => (t.pc, t.report)) = some (0x1004#32, none) := by
  decide

/-- V6: a fetch fault under `prefetch_abort`. -/
theorem test_prefetch_abort :
    seen (step { at1000 .usr 0#4 with
        cfg := { Config.default with fetchFaultPolicy := .prefetchAbort } })
      (fun t => (t.pc, t.cpsr.toWord, t.reg 14, t.spsrs.abt)) =
      some (0x0C#32, 0x97#32, 0x1004#32, 0x10#32) := by
  decide

/-- V6: the return of an interrupt handler. -/
theorem test_interrupt_return :
    seen (run { withRegs (at100 .irq 0#4) [(14, 0x1004#32)] with
        spsrs := State.reset.spsrs.write .irq 0x10#32 } 0xE25EF004)
      (fun t => (t.pc, t.cpsr.toWord)) = some (0x1000#32, 0x10#32) := by
  decide

/-- V7: FIQ mode has its own r8 to r12 only with `FIQ_BANKS_R8_R12`; MOV r8, #1 in FIQ mode. -/
theorem test_fiq_banks :
    seen (run (at100 .fiq 0#4) 0xE3A08001)
      (fun t => (t.regs.read (.midFiq 0), t.regs.read (.mid 0))) = some (1#32, 0#32) ∧
    seen (run { at100 .fiq 0#4 with cfg := { Config.default with fiqBanks := false } } 0xE3A08001)
      (fun t => (t.regs.read (.midFiq 0), t.regs.read (.mid 0))) = some (0#32, 1#32) := by
  decide

/-- V8: after reset the pc is 0, the CPSR 0xD3, the run status running; the first step fetches at 0,
where nothing is listed. -/
theorem test_reset :
    State.reset.pc = 0#32 ∧ State.reset.cpsr.toWord = 0xD3#32 ∧ State.reset.run = .running ∧
      faultOf (step State.reset) = some (.fetchFault 0#32) := by
  decide

/-- V8: Reset leaves a faulted run. -/
theorem test_reset_request :
    seen (hostRequest .reset { at100 .usr 0xF#4 with run := .faulted (.fetchFault 0#32) })
      (fun t => (t.pc, t.cpsr.toWord, t.run)) = some (0#32, 0xD3#32, .running) := by
  decide

/-- P6: a fault marks the run and leaves its record; the loop then stays. -/
theorem test_fault_marks_run :
    ({ at100 .usr 0#4 with pc := 0xF#32 }.afterStep).run =
        .faulted (.unpredictable .misalignedPC) ∧
      (State.loop 3 { at100 .usr 0#4 with pc := 0xF#32 }).pc = 0xF#32 := by
  decide

/-! Witnesses: for every statement with hypotheses, concrete states and operands that meet all of them
together, for each clause and at the ends of its ranges. `at100` has TRAP_ENTRY = report, `at1000`
apply. -/

/-- O2: well-formed terms of the constructors WellFormed checks, at the ends of their fields. -/
theorem witness_DecodeInvertsEncode :
    Instr.wf (.hdtRegOther ⟨.al, true, false, false, true, 0, 15, false, false, 15⟩) = true ∧
    Instr.wf (.hdtImmOther ⟨.eq, false, false, true, false, 15, 0, 15#4, true, true, 15#4⟩) = true ∧
    Instr.wf (.str ⟨.reserved, true, true, true, true, 15, 15, 0xFEF#12⟩) = true ∧
    Instr.wf (.ldr ⟨.al, false, true, true, true, 15, 15, 0xFFF#12⟩) = true ∧
    Instr.wf (.msrReg ⟨.al, true, true, true, true, true, 0xF1#8, 15⟩) = true ∧
    Instr.wf (.extension ⟨.al, 13#4, true, 15, 15, 15#4, 3#2, 15#4⟩) = true ∧
    Instr.wf (.badTest ⟨.al, true, .cmn, 15, 14, 0xFFF#12⟩) = true ∧
    Instr.wf (.mvn ⟨.al, true, 15, 15, .imm 15#4 0xFF#8⟩) = true := by
  decide

/-- O5: four bytes in each order, and the short lists at both ends. -/
theorem witness_BytesDecodeInOrder :
    decodeWord (0xE1#8 ++ 0xA0#8 ++ 0x00#8 ++ 0x00#8) =
      .ok (.mov ⟨.al, false, 0, 0, .shiftImm 0 .lsl 0#5⟩) ∧
    ([] : List Byte).length < 4 ∧ [0x00#8, 0x00#8, 0xA0#8].length < 4 :=
  ⟨rfl, by decide, by decide⟩

/-- O6: a ready state with a NOP at the pc. -/
theorem witness_StepRunsDecoded :
    let s := (at100 .usr 0#4).withFetchWord 32 0xE1A00000
    s.Ready ∧ s.mem.readByte s.pc.toNat = some 0x00#8 ∧
      s.mem.readByte (s.pc.toNat + 1) = some 0x00#8 ∧
      s.mem.readByte (s.pc.toNat + 2) = some 0xA0#8 ∧
      s.mem.readByte (s.pc.toNat + 3) = some 0xE1#8 ∧
      decodeBytes s.cfg.fetchEndian [0x00#8, 0x00#8, 0xA0#8, 0xE1#8] =
        .ok (.mov ⟨.al, false, 0, 0, .shiftImm 0 .lsl 0#5⟩, []) :=
  ⟨by decide, by decide, by decide, by decide, by decide, rfl⟩

/-- O7: Thumb state, and the pc at each misaligned offset. -/
theorem witness_StopsBeforeFetch :
    let s := withCpsr (at100 .usr 0#4) 0x30#32
    let m : State → Word → State := fun u p => { u with pc := p }
    s.run = .running ∧ boundaryInterrupt s = none ∧ s.cpsr.t = true ∧
      (at100 .usr 0#4).run = .running ∧ boundaryInterrupt (at100 .usr 0#4) = none ∧
      (at100 .usr 0#4).cpsr.t = false ∧
      (m (at100 .usr 0#4) 0x101#32).pc.toNat % 4 ≠ 0 ∧
      (m (at100 .usr 0#4) 0xFFFFFFFF#32).pc.toNat % 4 ≠ 0 := by
  decide

/-- O8: nothing listed at byte 0, and only bytes 0 to 2 listed; both policies and both entries. -/
theorem witness_FetchFaultRouted :
    let s : State := { at100 .usr 0#4 with mem := [(0x100, 0#8), (0x101, 0#8), (0x102, 0#8)] }
    let p : State := { at1000 .usr 0#4 with
      cfg := { Config.default with fetchFaultPolicy := .prefetchAbort } }
    s.Ready ∧ s.mem.readByte (s.pc.toNat + 3) = none ∧ s.cfg.fetchFaultPolicy = .surface ∧
      s.cfg.trapEntry = .report ∧
      p.Ready ∧ p.mem.readByte (p.pc.toNat + 0) = none ∧
      p.cfg.fetchFaultPolicy = .prefetchAbort ∧ p.cfg.trapEntry = .apply := by
  decide

/-- O9: both requests with FIQ unmasked, IRQ alone, IRQ beside a masked FIQ, `report`, and both low. -/
theorem witness_InterruptsTaken :
    let s : State := { at1000 .usr 0#4 with irqReq := true, fiqReq := true }
    let q : State := { at1000 .usr 0#4 with irqReq := true }
    let m : State := withCpsr s 0x50#32
    s.run = .running ∧ s.cfg.trapEntry = .apply ∧ s.fiqReq = true ∧ s.cpsr.f = false ∧
      q.run = .running ∧ q.cfg.trapEntry = .apply ∧ q.fiqReq = false ∧ q.irqReq = true ∧
      q.cpsr.i = false ∧
      m.run = .running ∧ m.cfg.trapEntry = .apply ∧ m.cpsr.f = true ∧ m.irqReq = true ∧
      m.cpsr.i = false ∧
      (at100 .usr 0#4).cfg.trapEntry = .report ∧
      (at1000 .usr 0#4).fiqReq = false ∧ (at1000 .usr 0#4).irqReq = false := by
  decide

/-- O10: an instruction with the reserved condition. -/
theorem witness_ConditionDecidesExecution :
    (Instr.swi ⟨.reserved, 0#24⟩).cond = Cond.ofBits 0b1111#4 := by
  decide

/-- O11: EQ with Z = 0, for an instruction that would trap and one that would be refused. -/
theorem witness_FailedConditionSkips :
    conditionPassed (Instr.swi ⟨.eq, 0#24⟩).cond (at100 .usr 0#4).cpsr = some false ∧
    conditionPassed (Instr.ldm ⟨.eq, true, true, true, true, 0, 1#16⟩).cond
      (at100 .usr 0#4).cpsr = some false := by
  decide

/-- O12: the bits at both ends, and the rotate field at both ends. -/
theorem witness_ImmediateOperandRotates :
    (0 < 32 ∧ 31 < 32) ∧ (0#4 : BitVec 4) = 0#4 ∧ (15#4 : BitVec 4) ≠ 0#4 := by
  decide

/-- O13: the amounts 0 and 31 of the immediate form, 0, 32, 33 and 255 of the register form. -/
theorem witness_LeftShift (v : Word) (c : Bool) :
    (∃ a : BitVec 5, 0 = a.toNat ∧ shiftByImm .lsl v 0#5 c = shiftByImm .lsl v a c) ∧
    (∃ a : BitVec 5, 31 = a.toNat ∧ shiftByImm .lsl v 31#5 c = shiftByImm .lsl v a c) ∧
    (∃ b : Byte, 0 = b.toNat ∧ shiftByReg .lsl v 0#8 c = shiftByReg .lsl v b c) ∧
    (∃ b : Byte, 32 = b.toNat ∧ shiftByReg .lsl v 32#8 c = shiftByReg .lsl v b c) ∧
    (∃ b : Byte, 33 = b.toNat ∧ shiftByReg .lsl v 33#8 c = shiftByReg .lsl v b c) ∧
    (∃ b : Byte, 255 = b.toNat ∧ shiftByReg .lsl v 255#8 c = shiftByReg .lsl v b c) :=
  ⟨⟨0#5, rfl, rfl⟩, ⟨31#5, rfl, rfl⟩, ⟨0#8, rfl, rfl⟩, ⟨32#8, rfl, rfl⟩, ⟨33#8, rfl, rfl⟩,
    ⟨255#8, rfl, rfl⟩⟩

/-- O14: an immediate amount 0 is 32; the other ends. -/
theorem witness_LogicalRightShift (v : Word) (c : Bool) :
    (∃ a : BitVec 5, 32 = (if a = 0#5 then 32 else a.toNat) ∧
      shiftByImm .lsr v 0#5 c = shiftByImm .lsr v a c) ∧
    (∃ a : BitVec 5, 31 = (if a = 0#5 then 32 else a.toNat) ∧
      shiftByImm .lsr v 31#5 c = shiftByImm .lsr v a c) ∧
    (∃ b : Byte, 0 = b.toNat ∧ shiftByReg .lsr v 0#8 c = shiftByReg .lsr v b c) ∧
    (∃ b : Byte, 255 = b.toNat ∧ shiftByReg .lsr v 255#8 c = shiftByReg .lsr v b c) :=
  ⟨⟨0#5, rfl, rfl⟩, ⟨31#5, rfl, rfl⟩, ⟨0#8, rfl, rfl⟩, ⟨255#8, rfl, rfl⟩⟩

/-- O15: as O14. -/
theorem witness_ArithmeticRightShift (v : Word) (c : Bool) :
    (∃ a : BitVec 5, 32 = (if a = 0#5 then 32 else a.toNat) ∧
      shiftByImm .asr v 0#5 c = shiftByImm .asr v a c) ∧
    (∃ a : BitVec 5, 31 = (if a = 0#5 then 32 else a.toNat) ∧
      shiftByImm .asr v 31#5 c = shiftByImm .asr v a c) ∧
    (∃ b : Byte, 0 = b.toNat ∧ shiftByReg .asr v 0#8 c = shiftByReg .asr v b c) ∧
    (∃ b : Byte, 255 = b.toNat ∧ shiftByReg .asr v 255#8 c = shiftByReg .asr v b c) :=
  ⟨⟨0#5, rfl, rfl⟩, ⟨31#5, rfl, rfl⟩, ⟨0#8, rfl, rfl⟩, ⟨255#8, rfl, rfl⟩⟩

/-- O16: the amounts 1 and 31 of the immediate form, 0, 32 and 255 of the register form. -/
theorem witness_RotateRight (v : Word) (c : Bool) :
    (∃ a : BitVec 5, a ≠ 0#5 ∧ 1 = a.toNat ∧ shiftByImm .ror v 1#5 c = shiftByImm .ror v a c) ∧
    (∃ a : BitVec 5, a ≠ 0#5 ∧ 31 = a.toNat ∧ shiftByImm .ror v 31#5 c = shiftByImm .ror v a c) ∧
    (∃ b : Byte, 0 = b.toNat ∧ shiftByReg .ror v 0#8 c = shiftByReg .ror v b c) ∧
    (∃ b : Byte, 32 = b.toNat ∧ shiftByReg .ror v 32#8 c = shiftByReg .ror v b c) ∧
    (∃ b : Byte, 255 = b.toNat ∧ shiftByReg .ror v 255#8 c = shiftByReg .ror v b c) :=
  ⟨⟨1#5, by decide, rfl, rfl⟩, ⟨31#5, by decide, rfl, rfl⟩, ⟨0#8, rfl, rfl⟩, ⟨32#8, rfl, rfl⟩,
    ⟨255#8, rfl, rfl⟩⟩

/-- O17 and O18: the register numbers at the ends of the clauses. -/
theorem witness_OperandForms_BankingMap :
    (14 : Reg) ≠ 15 ∧ (0 : Reg) ≠ 15 ∧ (7 : Reg).val < 8 ∧ (0 : Reg).val < 8 ∧
      (8 : Reg).val = 8 + (0 : Fin 5).val ∧ (12 : Reg).val = 8 + (4 : Fin 5).val := by
  decide

/-- O19 and O20: an immediate form in any state, a register shift under STRICT_UNPREDICTABLE, and a
jump (Rd = 15 with S = 0). -/
theorem witness_LogicalResults_ArithmeticResults :
    (Passes .al (at100 .usr 0#4) ∧
      OperandAllowed (at100 .usr 0#4) 1 0 (.imm 0#4 1#8) ∧ ¬(true = true ∧ (0 : Reg) = 15) ∧
      shifterOperand (.imm 0#4 1#8) (at100 .usr 0#4) = .ok ⟨1#32, false⟩) ∧
    (Passes .al strictAt100 ∧ OperandAllowed strictAt100 0 14 (.shiftReg 2 .ror 3) ∧
      ¬(true = true ∧ (14 : Reg) = 15) ∧
      shifterOperand (.shiftReg 2 .ror 3) strictAt100 = .ok ⟨0#32, false⟩ ∧
      strictAt100.cfg.strict = true) ∧
    (OperandAllowed (at100 .usr 0#4) 15 15 (.shiftImm 15 .lsl 0#5) ∧
      ¬(false = true ∧ (15 : Reg) = 15) ∧
      shifterOperand (.shiftImm 15 .lsl 0#5) (at100 .usr 0#4) = .ok ⟨0x108#32, false⟩) :=
  ⟨⟨by decide, trivial, by decide, rfl⟩, ⟨by decide, fun _ => by decide, by decide, rfl, rfl⟩,
    ⟨trivial, by decide, rfl⟩⟩

/-- O21: TST with and without STRICT_UNPREDICTABLE; without it the Rd field may be 15. -/
theorem witness_TestResults :
    (Passes .al (at100 .usr 0#4) ∧ OperandAllowed (at100 .usr 0#4) 15 15 (.shiftReg 15 .lsl 1) ∧
      ((at100 .usr 0#4).cfg.strict = true → (15 : Reg) = 0) ∧
      shifterOperand (.shiftReg 15 .lsl 1) (at100 .usr 0#4) = .ok ⟨0x10C#32, false⟩) ∧
    (Passes .al strictAt100 ∧ OperandAllowed strictAt100 1 0 (.shiftReg 2 .lsl 3) ∧
      shifterOperand (.shiftReg 2 .lsl 3) strictAt100 = .ok ⟨0#32, false⟩) :=
  ⟨⟨by decide, fun h => absurd h (by decide), fun h => absurd h (by decide), rfl⟩,
    ⟨by decide, fun _ => by decide, rfl⟩⟩

/-- O22: the first and the last of the twelve, as a jump. -/
theorem witness_PcResultJumps :
    (⟨.and, fun a b _ => a &&& b, true⟩ : WritingOp) ∈ writingOps ∧
    (⟨.mvn, fun _ b _ => ~~~b, false⟩ : WritingOp) ∈ writingOps ∧
    Passes .al (at100 .usr 0#4) ∧ OperandAllowed (at100 .usr 0#4) 0 15 (.imm 0#4 1#8) ∧
    RnAllowed (at100 .usr 0#4) ⟨.mvn, fun _ b _ => ~~~b, false⟩ 0 ∧
    shifterOperand (.imm 0#4 1#8) (at100 .usr 0#4) = .ok ⟨1#32, false⟩ := by
  refine ⟨by simp [writingOps], by simp [writingOps], by decide, trivial, fun _ _ => rfl, rfl⟩

/-- O23: a return from IRQ mode with a valid SPSR to a misaligned pc and to Thumb state, an SPSR with
no valid mode, and User and System mode. -/
theorem witness_ReturnRestoresCpsr :
    let o : Operand2 := .shiftImm 14 .lsl 0#5
    let s : State := { withRegs (at100 .irq 0#4) [(14, 0x2002#32)] with
      spsrs := State.reset.spsrs.write .irq 0x60000010#32 }
    let u : State := { s with spsrs := s.spsrs.write .irq 0x30#32 }
    (Passes .al s ∧ OperandAllowed s 0 15 o ∧ shifterOperand o s = .ok ⟨0x2002#32, false⟩ ∧
      s.cpsr.mode = ExcMode.irq.mode ∧
      Mode.ofBits ((s.spsrs.read .irq).extractLsb' 0 5) ≠ none) ∧
    (Mode.ofBits ((u.spsrs.read .irq).extractLsb' 0 5) ≠ none ∧
      (u.spsrs.read .irq).getLsbD 5 = true) ∧
    ((at100 .svc 0#4).cpsr.mode = ExcMode.svc.mode ∧
      Mode.ofBits (((at100 .svc 0#4).spsrs.read .svc).extractLsb' 0 5) = none) ∧
    (at100 .usr 0#4).cpsr.mode = .usr ∧ (at100 .sys 0#4).cpsr.mode = .sys :=
  ⟨⟨by decide, trivial, by rfl, by decide, by decide⟩, by decide, by decide, by decide, by decide⟩

/-- O24: a shift by r15, with and without STRICT_UNPREDICTABLE. -/
theorem witness_ShiftAmountFromPcTraps :
    Passes .al (at100 .usr 0#4) ∧ OperandAllowed (at100 .usr 0#4) 15 15 (.shiftReg 15 .lsl 15) ∧
    Passes .al strictAt100 ∧ OperandAllowed strictAt100 0 14 (.shiftReg 14 .ror 15) ∧
    RnAllowed strictAt100 ⟨.mov, fun _ b _ => b, false⟩ 0 ∧ Instr.cmn ∈ testOps :=
  ⟨by decide, fun h => absurd h (by decide), by decide, fun _ => by decide, fun _ _ => rfl,
    by simp [testOps]⟩

/-- O25: the strict state, a nonzero field for each clause, and r15 in each place. -/
theorem witness_StrictFaults :
    strictAt100.cfg.strict = true ∧ Passes .al strictAt100 ∧
    (⟨.mov, fun _ b _ => b, false⟩ : WritingOp) ∈ writingOps ∧
    (⟨.add, fun a b _ => a + b, true⟩ : WritingOp) ∈ writingOps ∧ Instr.tst ∈ testOps ∧
    (1 : Reg) ≠ 0 ∧ (15 : Reg) ≠ 0 ∧ (1#8 : Byte) ≠ 0#8 ∧ (0x80#8 : Byte) ≠ 0#8 ∧
    ((15 : Reg) = 15 ∨ (1 : Reg) = 15 ∨ (2 : Reg) = 15) ∧
    ((1 : Reg) = 15 ∨ (15 : Reg) = 15 ∨ (2 : Reg) = 15) ∧
    ((1 : Reg) = 15 ∨ (2 : Reg) = 15 ∨ (15 : Reg) = 15) :=
  ⟨by decide, by decide, by simp [writingOps], by simp [writingOps], by simp [testOps],
    by decide, by decide, by decide, by decide, by decide, by decide, by decide⟩

/-- O26: MUL with an ignored Rn field of 15, MUL under STRICT_UNPREDICTABLE, MLA. -/
theorem witness_MultiplyResults :
    Passes .al (at100 .usr 0#4) ∧
    MultiplyAllowed (at100 .usr 0#4) false ⟨.al, true, 14, 15, 0, 1⟩ ∧
    MultiplyAllowed strictAt100 false ⟨.al, true, 2, 0, 2, 1⟩ ∧
    MultiplyAllowed strictAt100 true ⟨.al, false, 0, 14, 14, 1⟩ := by
  refine ⟨by decide, ?_, ?_, ?_⟩ <;> unfold MultiplyAllowed <;> decide

/-- O27: Rs = RdLo and Rs = Rm are allowed. -/
theorem witness_MultiplyLongResults :
    Passes .al (at100 .usr 0#4) ∧ MultiplyLongAllowed ⟨.al, true, 14, 0, 0, 1⟩ ∧
    MultiplyLongAllowed ⟨.al, false, 1, 0, 2, 2⟩ := by
  refine ⟨by decide, ?_, ?_⟩ <;> unfold MultiplyLongAllowed <;> decide

/-- O28: one term for each restriction. -/
theorem witness_MultiplyRestrictionsTrap :
    let a : MulArgs := ⟨.al, false, 0, 0, 1, 0⟩
    let b : MullArgs := ⟨.al, false, 0, 0, 3, 2⟩
    Passes .al (at100 .usr 0#4) ∧ (strictAt100.cfg.strict = true → a.rn = 0) ∧
    ¬(a.rd = 15 ∨ a.rm = 15 ∨ a.rs = 15) ∧ a.rd = a.rm ∧
    ¬(a.rd = 15 ∨ a.rm = 15 ∨ a.rs = 15 ∨ a.rn = 15) ∧
    ((15 : Reg) = 15 ∨ (1 : Reg) = 15 ∨ (2 : Reg) = 15) ∧
    ((0 : Reg) = 15 ∨ (1 : Reg) = 15 ∨ (2 : Reg) = 15 ∨ (15 : Reg) = 15) ∧
    ¬(b.rdHi = 15 ∨ b.rdLo = 15 ∨ b.rm = 15 ∨ b.rs = 15) ∧
    (b.rdHi = b.rdLo ∨ b.rm = b.rdHi ∨ b.rm = b.rdLo) := by
  decide

/-- O29 and O42: MRS in a mode with an SPSR and in the two without. -/
theorem witness_MrsReads_SpsrGate :
    Passes .al (at100 .und 0#4) ∧ (14 : Reg) ≠ 15 ∧
    (at100 .und 0#4).cpsr.mode = ExcMode.und.mode ∧
    (at100 .usr 0#4).cpsr.mode = .usr ∧ (at100 .sys 0#4).cpsr.mode = .sys ∧
    (at100 .fiq 0#4).cpsr.mode = .fiq ∧ (at100 .irq 0#4).cpsr.mode = .irq ∧
    (at100 .svc 0#4).cpsr.mode = .svc ∧ (at100 .abt 0#4).cpsr.mode = .abt ∧
    Passes .al (at100 .sys 0#4) ∧
    OperandAllowed (at100 .sys 0#4) 0 15 (.shiftImm 14 .lsl 0#5) ∧
    shifterOperand (.shiftImm 14 .lsl 0#5) (at100 .sys 0#4) = .ok ⟨0#32, false⟩ :=
  ⟨by decide, by decide, by decide, by decide, by decide, by decide, by decide, by decide, by decide,
    by decide, trivial, rfl⟩

/-- O30: a control write in Supervisor mode, strict and not, and a flags write in User mode. -/
theorem witness_MsrWritesCpsr :
    let s : State := withRegs (at100 .svc 0#4) [(0, 0xF00000D2#32)]
    let u : State := { s with cfg := strictAt100.cfg }
    Passes .al s ∧ s.cpsr.mode ≠ .usr ∧ Mode.ofBits ((s.reg 0).extractLsb' 0 5) ≠ none ∧
    u.cfg.strict = true ∧ (u.reg 0).getLsbD 5 = u.cpsr.t ∧ u.cpsr.mode ≠ .usr ∧
    Mode.ofBits ((u.reg 0).extractLsb' 0 5) ≠ none ∧ Passes .al (at100 .usr 0#4) := by
  decide

/-- O31: each end of the list of exception modes. -/
theorem witness_MsrWritesSpsr :
    Passes .al (at100 .fiq 0#4) ∧ (at100 .fiq 0#4).cpsr.mode = ExcMode.fiq.mode ∧
    Passes .al (at100 .und 0#4) ∧ (at100 .und 0#4).cpsr.mode = ExcMode.und.mode ∧
    ((at100 .und 0#4).cfg.strict = true → (0xFF#8 : Byte) = 0#8) := by
  decide

/-- O32: User and System mode. -/
theorem witness_MsrChecksTrap :
    Passes .al (at100 .usr 0#4) ∧ (at100 .usr 0#4).cpsr.mode = .usr ∧
    Passes .al (at100 .sys 0#4) ∧ (at100 .sys 0#4).cpsr.mode = .sys ∧
    ((at100 .usr 0#4).cfg.strict = true → (0xFF#8 : Byte) = 0#8) := by
  decide

/-- O33: an invalid mode number, and a change of T under STRICT_UNPREDICTABLE. -/
theorem witness_MsrFaults :
    let s : State := withRegs (at100 .svc 0#4) [(0, 0xD4#32)]
    let u : State := { withRegs (at100 .svc 0#4) [(0, 0xF3#32)] with cfg := strictAt100.cfg }
    Passes .al s ∧ s.cpsr.mode ≠ .usr ∧ Mode.ofBits ((s.reg 0).extractLsb' 0 5) = none ∧
    Passes .al u ∧ u.cpsr.mode ≠ .usr ∧ Mode.ofBits ((u.reg 0).extractLsb' 0 5) ≠ none ∧
    u.cfg.strict = true ∧ (u.reg 0).getLsbD 5 ≠ u.cpsr.t := by
  decide

/-- O34 to O39: the condition passes, AL in any state and EQ with Z = 1; an aligned pc. -/
theorem witness_Passes :
    Passes .al (at100 .usr 0#4) ∧ Passes .eq (at100 .usr 0b0100#4) ∧ Passes .al (at1000 .und 0#4) ∧
    (at100 .usr 0#4).pc.toNat % 4 = 0 ∧ (at100 .usr 0#4).cfg.trapEntry = .report ∧
    (at1000 .und 0#4).cfg.trapEntry = .apply := by
  decide

/-- O40, O45 and O52: a state at a boundary, running and not, and one inside a step. -/
theorem witness_ExceptionEntry_ResetValues_HostRequests :
    let f : State := { at100 .usr 0#4 with run := .faulted (.fetchFault 0#32) }
    let r : State := { at100 .usr 0#4 with run := .refused .thumbState }
    let p : State := { at100 .usr 0#4 with run := .stopped }
    (at100 .usr 0#4).phase = .fetch ∧ (at100 .usr 0#4).run = .running ∧
    f.phase = .fetch ∧ f.run = .faulted (.fetchFault 0#32) ∧
    r.phase = .fetch ∧ r.run = .refused .thumbState ∧ p.phase = .fetch ∧ p.run = .stopped ∧
    ((at100 .usr 0#4).fetched 0#32).phase = .decodeExecute ∧
    Request.enter .irq 0#32 ≠ .reset ∧
    seen (hostRequest (.enter .irq 0#32) f) State.run = some (.faulted (.fetchFault 0#32)) ∧
    seen (hostRequest .stop r) State.run = some (.refused .thumbState) := by
  decide

/-- O41: the handler state right after the entry, for each kind of each clause. -/
theorem witness_TrapReturnResumes :
    let s := at1000 .usr 0b0110#4
    (∀ k ∈ [ExcKind.undef, .swi, .prefetchAbort, .irq, .fiq],
      (enterException k s.pc s).cpsr.mode = k.target.mode) ∧
    decodeWord 0xE1B0F00E#32 = .ok (.mov ⟨.al, true, 0, 15, .shiftImm 14 .lsl 0#5⟩) ∧
    decodeWord 0xE25EF004#32 = .ok (.sub ⟨.al, true, 14, 15, .imm 0#4 4#8⟩) :=
  ⟨by decide, rfl, rfl⟩

/-- O43: the first and the last of the seven mode numbers, and a word with a valid mode and every other
bit set. -/
theorem witness_PsrViewsAgree :
    Mode.ofBits 0b10000#5 = some .usr ∧ Mode.ofBits 0b11111#5 = some .sys ∧
    Mode.ofBits ((0xFFFFFFFF#32 : Word).extractLsb' 0 5) ≠ none ∧
    Psr.ofWord? 0xFFFFFFFF#32 = some ⟨true, true, true, true, 0xFFFFF#20, true, true, true, .sys⟩ := by
  decide

/-- O44, O47, O48, O49 and O51: a step in User mode that answers a next state, from a state with the
invariant. -/
theorem witness_step_next :
    let s := (at1000 .usr 0#4).withFetchWord 32 0xE3A00001
    s.Inv ∧ s.cpsr.mode = .usr ∧ ∃ t, step s = .next t :=
  ⟨by decide, by decide, _, rfl⟩

/-- O44, O47 to O49 and O51: a step that enters an exception, from a state with the invariant. -/
theorem witness_step_enters :
    let s := (at1000 .usr 0#4).withFetchWord 32 0xEF000000
    s.Inv ∧ s.cpsr.mode = .usr ∧ ∃ t, step s = .next t ∧ t.cpsr.mode = .svc :=
  ⟨by decide, by decide, _, rfl, by decide⟩

/-- O46: a configuration and a memory the spec allows. -/
theorem witness_ResetSatisfiesInvariant :
    ConfigOk { Config.default with vectorBase := 0xFFFF0000#32 } ∧
    Memory.wf [(0, 0#8), (0xFFFFFFFF, 1#8)] := by
  decide

/-- O50: two User-mode states that differ in a Supervisor register and an SPSR. -/
theorem witness_UserModeIsolation :
    let s := at1000 .usr 0#4
    let t : State := { s with
      regs := s.regs.write (.sp .svc) 7#32, spsrs := s.spsrs.write .fiq 9#32 }
    UserAgree s t ∧ s ≠ t := by
  refine ⟨⟨rfl, rfl, rfl, rfl, ?_, rfl, rfl, rfl, rfl, rfl, rfl, rfl, rfl, rfl⟩, ?_⟩
  · decide
  · decide

/-- O51: a step that faults and a step that is refused. -/
theorem witness_StopCommitsNothing :
    step { at100 .usr 0#4 with pc := 0x102#32 } = .fault (.unpredictable .misalignedPC) ∧
    step (withCpsr (at100 .usr 0#4) 0x30#32) = .refused .thumbState :=
  ⟨rfl, rfl⟩

/-- O53: each run status that is not running. -/
theorem witness_StoppedCoreStays :
    let f : State := { at100 .usr 0#4 with run := .faulted (.fetchFault 0#32) }
    let r : State := { at100 .usr 0#4 with run := .refused .thumbState }
    let p : State := { at100 .usr 0#4 with run := .stopped }
    f.run ≠ .running ∧ r.run ≠ .running ∧ p.run ≠ .running := by
  decide

end Sys2Proof.Tests
end

section
/-! The executors named once, what each writes to the PSRs (10_state.md R31), the banking map, and the
accesses to an SPSR. -/

namespace Sys2Proof.Machine

/-! The executors of the instruction classes. -/

/-- The executors an instruction can have, one constructor for each shape. -/
inductive Executor : (State → Except NonOk State) → Prop
  | dp (op : AluOp) (sbz : Bool) (a : DpArgs) : Executor (dpBody op sbz a)
  | test (op : AluOp) (a : TestArgs) : Executor (testBody op a)
  | mul (acc : Bool) (op : Word → Word → Word → Word) (a : MulArgs) : Executor (mulBody acc op a)
  | mull (op : Word → Word → BitVec 64 → BitVec 64) (a : MullArgs) : Executor (mullBody op a)
  | mrs (a : MrsArgs) : Executor (mrsBody a)
  | msrReg (a : MsrRegArgs) : Executor (msrRegBody a)
  | msrImm (a : MsrImmArgs) : Executor (msrImmBody a)
  | branch (a : BranchArgs) : Executor (branchBody a)
  | branchLink (a : BranchArgs) : Executor (branchLinkBody a)
  | branchExchange (a : BxArgs) : Executor (branchExchangeBody a)
  | raise (o : NonOk) : Executor fun _ => .error o

/-- Every instruction is its condition, one of the executors, and the commit
(46_dispatch.md R242, R244). -/
theorem exec_eq_execute (i : Instr) :
    ∃ body, Executor body ∧ ∀ s, exec i s = execute i.cond body s := by
  cases i with
  | and a | eor a | sub a | rsb a | add a | adc a | sbc a | rsc a | orr a | mov a | bic a | mvn a =>
    exact ⟨_, .dp _ _ a, fun _ => rfl⟩
  | tst a | teq a | cmp a | cmn a => exact ⟨_, .test _ a, fun _ => rfl⟩
  | mul a | mla a => exact ⟨_, .mul _ _ a, fun _ => rfl⟩
  | umull a | umlal a | smull a | smlal a => exact ⟨_, .mull _ a, fun _ => rfl⟩
  | mrs a => exact ⟨_, .mrs a, fun _ => rfl⟩
  | msrReg a => exact ⟨_, .msrReg a, fun _ => rfl⟩
  | msrImm a => exact ⟨_, .msrImm a, fun _ => rfl⟩
  | b a => exact ⟨_, .branch a, fun _ => rfl⟩
  | bl a => exact ⟨_, .branchLink a, fun _ => rfl⟩
  | bx a => exact ⟨_, .branchExchange a, fun _ => rfl⟩
  | swi | undef | stc | ldc | cdp | mcr | mrc | swp | swpb | strhReg | ldrhReg | ldrsbReg
  | ldrshReg | hdtRegOther | strhImm | ldrhImm | ldrsbImm | ldrshImm | hdtImmOther | str | ldr
  | strb | ldrb | stm | ldm | extension | badTest =>
    exact ⟨_, .raise _, fun _ => rfl⟩

/-- What routing an outcome answers as a next state: an exception other than Reset is entered, or the
trap is reported. -/
theorem settle_next_ne_reset {o : NonOk} {s t : State} (h : settle o s = .next t) :
    (∃ k, k ≠ .reset ∧ t = trapEntered k o s) ∨ t = trapReported o s := by
  have routed {k : ExcKind} (hk : k ≠ .reset) (ht : t = routeTrap k o s) :
      (∃ k, k ≠ .reset ∧ t = trapEntered k o s) ∨ t = trapReported o s :=
    (routeTrap_cases k o s).imp (fun hr => ⟨k, hk, ht.trans hr.2⟩) fun hr => ht.trans hr.2
  cases o with
  | undefinedInstruction r => exact routed (k := .undef) (by decide) (by cases h; rfl)
  | softwareInterrupt c => exact routed (k := .swi) (by decide) (by cases h; rfl)
  | fetchFault a =>
    simp only [settle] at h
    split at h
    · cases h
    · exact routed (k := .prefetchAbort) (by decide) (by cases h; rfl)
  | refused r => cases h
  | unpredictable r => cases h
  | interruptTaken k =>
    cases h
    exact .inl ⟨k.exc, by cases k <;> decide, rfl⟩
  | classificationFailure w => cases h

/-! The word view and the field view of a PSR (10_state.md R30, R31). -/

/-- A word is fixed by the fields of its PSR layout (10_state.md R30). -/
theorem word_eq_of_psr_fields {v w : Word} (hn : v.getLsbD 31 = w.getLsbD 31)
    (hz : v.getLsbD 30 = w.getLsbD 30) (hc : v.getLsbD 29 = w.getLsbD 29)
    (hv : v.getLsbD 28 = w.getLsbD 28) (hr : v.extractLsb' 8 20 = w.extractLsb' 8 20)
    (hi : v.getLsbD 7 = w.getLsbD 7) (hf : v.getLsbD 6 = w.getLsbD 6)
    (ht : v.getLsbD 5 = w.getLsbD 5) (hm : v.extractLsb' 0 5 = w.extractLsb' 0 5) : v = w := by
  apply BitVec.eq_of_getLsbD_eq
  intro k hk
  obtain h | h | rfl | rfl | rfl | rfl | rfl | rfl | rfl :
      k < 5 ∨ (8 ≤ k ∧ k < 28) ∨
        k = 5 ∨ k = 6 ∨ k = 7 ∨ k = 28 ∨ k = 29 ∨ k = 30 ∨ k = 31 := by omega
  · simpa [BitVec.getLsbD_extractLsb', h] using congrArg (·.getLsbD k) hm
  · have h20 : k - 8 < 20 := by omega
    have h8 : 8 + (k - 8) = k := by omega
    simpa [BitVec.getLsbD_extractLsb', h20, h8] using congrArg (·.getLsbD (k - 8)) hr
  all_goals assumption

/-- The word of the field view of a word is that word, its reserved bits included
(10_state.md R31). -/
theorem Psr.toWord_of_ofWord? {w : Word} {p : Psr} (h : Psr.ofWord? w = some p) :
    p.toWord = w := by
  obtain ⟨hn, hz, hc, hv, hr, hi, hf, ht, hm⟩ := Psr.ofWord?_some h
  exact word_eq_of_psr_fields (p.toWord_n.trans hn) (p.toWord_z.trans hz) (p.toWord_c.trans hc)
    (p.toWord_v.trans hv) (p.toWord_reserved.trans hr) (p.toWord_i.trans hi) (p.toWord_f.trans hf)
    (p.toWord_t.trans ht) (p.toWord_mode.trans hm)

/-- A value is the number of the mode it names, and of no other (10_state.md R22). -/
theorem Mode.ofBits_eq_some_iff (b : BitVec 5) (m : Mode) : Mode.ofBits b = some m ↔ b = m.bits :=
  ⟨fun h => (Mode.bits_of_ofBits h).symm, fun h => h ▸ Mode.ofBits_bits m⟩

/-- The merge of MSR keeps the reserved bits (44_psr_transfer.md R214). -/
theorem msrMerge_reserved (f c : Bool) (old operand : Word) :
    (msrMerge f c old operand).extractLsb' 8 20 = old.extractLsb' 8 20 := by
  unfold msrMerge
  rw [field_upper _ _ (by decide), field_lower _ _ (by decide)]
  exact field_whole _ _ rfl

/-- The SPSR of an exception mode is its own (10_state.md R36). -/
theorem State.spsr?_eq_some {s : State} {m : ExcMode} (h : s.cpsr.mode = m.mode) :
    s.spsr? = some (s.spsrs.read m) := by
  simp [State.spsr?, h]

/-- An SPSR access in User and System mode finds none (10_state.md R36). -/
theorem State.spsr?_eq_none {s : State} (h : s.cpsr.mode = .usr ∨ s.cpsr.mode = .sys) :
    s.spsr? = none := by
  simp [State.spsr?, (Mode.exc?_eq_none _).mpr h]

/-! Reserved bits move only with a whole PSR word. -/

/-- The reserved bits of every PSR of `t` are those of `s`, or came with a whole PSR word: the SPSR of
the old mode to the CPSR, the old CPSR to an SPSR (10_state.md R31). -/
structure ReservedCopied (s t : State) : Prop where
  cpsr : t.cpsr.reserved = s.cpsr.reserved ∨ s.spsr? = some t.cpsr.toWord
  spsrs : ∀ m : ExcMode, (t.spsrs.read m).extractLsb' 8 20 = (s.spsrs.read m).extractLsb' 8 20 ∨
    t.spsrs.read m = s.cpsr.toWord

theorem ReservedCopied.of_eq {s t : State} (hc : t.cpsr.reserved = s.cpsr.reserved)
    (hs : t.spsrs = s.spsrs) : ReservedCopied s t :=
  ⟨.inl hc, fun _ => .inl (by rw [hs])⟩

theorem ReservedCopied.setReg (s : State) (i : Reg) (v : Word) :
    ReservedCopied s (s.setReg i v) :=
  .of_eq (by simp) (by simp)

/-- An exception other than Reset saves the CPSR whole (60_exceptions.md R270). -/
theorem trapEntered_reservedCopied {k : ExcKind} (hk : k ≠ .reset) (o : NonOk) (s : State) :
    ReservedCopied s (trapEntered k o s) := by
  have e := trapEntered_entered k hk o s
  refine ⟨.inl (by rw [e.cpsr]), fun m => ?_⟩
  by_cases hm : m = k.target
  · exact .inr (hm ▸ e.saved)
  · exact .inl (by rw [e.spsrs m hm])

theorem settle_reservedCopied {o : NonOk} {s t : State} (h : settle o s = .next t) :
    ReservedCopied s t := by
  rcases settle_next_ne_reset h with ⟨k, hk, rfl⟩ | rfl
  · exact trapEntered_reservedCopied hk o s
  · exact .of_eq rfl rfl

/-- A return copies the SPSR of the mode to the CPSR whole (42_data_processing.md R152). -/
theorem returnFromException_reservedCopied {v : Word} {s t : State}
    (h : returnFromException v s = .ok t) : ReservedCopied s t := by
  unfold returnFromException at h
  split at h
  · cases h
  · rename_i w hw
    split at h
    · cases h
    · rename_i p hp
      cases h
      exact ⟨.inr (by simpa [Psr.toWord_of_ofWord? hp] using hw), fun m => .inl (by simp)⟩

theorem dpBody_reservedCopied {op : AluOp} {sbz : Bool} {a : DpArgs} {s t : State}
    (h : dpBody op sbz a s = .ok t) : ReservedCopied s t := by
  unfold dpBody at h
  split at h
  · cases h
  · split at h
    · cases h
    · dsimp only at h
      split at h
      · split at h
        · exact returnFromException_reservedCopied h
        · cases h
          exact .of_eq rfl (by simp)
      · cases h
        exact .setReg ..

theorem testBody_reservedCopied {op : AluOp} {a : TestArgs} {s t : State}
    (h : testBody op a s = .ok t) : ReservedCopied s t := by
  unfold testBody at h
  split at h
  · cases h
  · split at h
    · cases h
    · cases h
      exact .of_eq rfl rfl

theorem mulBody_reservedCopied {acc : Bool} {op : Word → Word → Word → Word} {a : MulArgs}
    {s t : State} (h : mulBody acc op a s = .ok t) : ReservedCopied s t := by
  unfold mulBody at h
  split at h
  · cases h
  · cases h
    split
    · exact .of_eq rfl (by simp)
    · exact .setReg ..

theorem mullBody_reservedCopied {op : Word → Word → BitVec 64 → BitVec 64} {a : MullArgs}
    {s t : State} (h : mullBody op a s = .ok t) : ReservedCopied s t := by
  unfold mullBody at h
  split at h
  · cases h
  · cases h
    split
    · exact .of_eq rfl (by simp)
    · exact .of_eq (by simp) (by simp)

theorem mrsBody_reservedCopied {a : MrsArgs} {s t : State} (h : mrsBody a s = .ok t) :
    ReservedCopied s t := by
  unfold mrsBody at h
  split at h
  · cases h
  · split at h
    · split at h
      · cases h
      · cases h
        exact .setReg ..
    · cases h
      exact .setReg ..

/-- MSR writes no reserved bit of either kind of PSR (44_psr_transfer.md R214). -/
theorem msrWrite_reservedCopied {spsr f c : Bool} {v : Word} {s t : State}
    (h : msrWrite spsr f c v s = .ok t) : ReservedCopied s t := by
  unfold msrWrite at h
  split at h
  · split at h
    · cases h
    · rename_i m _
      cases h
      refine ⟨.inl rfl, fun n => .inl ?_⟩
      rw [SpsrFile.read_write]
      split
      · rename_i hn
        rw [hn, msrMerge_reserved]
      · rfl
  · split at h
    · cases h
    · rename_i p hp
      split at h
      · cases h
      · cases h
        obtain ⟨-, -, -, -, hr, -⟩ := Psr.ofWord?_some hp
        exact .of_eq (by rw [hr, msrMerge_reserved, Psr.toWord_reserved]) rfl

/-- No executor changes a reserved bit but by a return (10_state.md R31). -/
theorem Executor.reservedCopied {body : State → Except NonOk State} (hb : Executor body)
    {s t : State} (h : body s = .ok t) : ReservedCopied s t := by
  cases hb with
  | dp op sbz a => exact dpBody_reservedCopied h
  | test op a => exact testBody_reservedCopied h
  | mul acc op a => exact mulBody_reservedCopied h
  | mull op a => exact mullBody_reservedCopied h
  | mrs a => exact mrsBody_reservedCopied h
  | msrReg a =>
    unfold msrRegBody at h
    split at h
    · cases h
    · exact msrWrite_reservedCopied h
  | msrImm a =>
    unfold msrImmBody at h
    split at h
    · cases h
    · exact msrWrite_reservedCopied h
  | branch a =>
    cases h
    exact .setReg ..
  | branchLink a =>
    cases h
    exact .of_eq (by simp) (by simp)
  | branchExchange a =>
    cases h
    exact .of_eq rfl (by simp)
  | raise o => cases h

theorem exec_reservedCopied {i : Instr} {s t : State} (h : exec i s = .next t) :
    ReservedCopied s t := by
  obtain ⟨body, hb, he⟩ := exec_eq_execute i
  rw [he] at h
  rcases execute_next h with ⟨-, h⟩ | ⟨-, rfl⟩ | ⟨-, ⟨o, -, h⟩ | ⟨u, hu, rfl⟩⟩
  · exact settle_reservedCopied h
  · exact .of_eq rfl rfl
  · exact settle_reservedCopied h
  · obtain ⟨hc, hs⟩ := hb.reservedCopied hu
    exact ⟨hc, hs⟩

theorem step_reservedCopied {s t : State} (h : step s = .next t) : ReservedCopied s t := by
  rcases step_next h with
    ⟨-, rfl⟩ | ⟨-, k, -, rfl⟩ | ⟨-, -, hp, rfl⟩ | ⟨-, w, i, -, -, h⟩
  · exact .of_eq rfl rfl
  · exact settle_reservedCopied (o := .interruptTaken k) rfl
  · exact settle_reservedCopied (o := .fetchFault s.pc) (by simp [settle, hp])
  · obtain ⟨hc, hs⟩ := exec_reservedCopied h
    exact ⟨hc, hs⟩

/-- Settles O44: whatever a step does to a PSR's reserved bits, it does by copying a whole word. -/
theorem reservedBitsOnlyCopied : Obligations.ReservedBitsOnlyCopied := by
  intro s t h
  obtain ⟨hc, hs⟩ := step_reservedCopied h
  exact ⟨hc, hs⟩

/-! The layout of a PSR word and the state after reset. -/

/-- Settles O43, from the laws of the two views. -/
theorem psrViewsAgree : Obligations.PsrViewsAgree := by
  refine ⟨fun p => ⟨p.toWord_n, p.toWord_z, p.toWord_c, p.toWord_v, p.toWord_reserved, p.toWord_i,
      p.toWord_f, p.toWord_t, p.toWord_mode⟩, ⟨rfl, rfl, rfl, rfl, rfl, rfl, rfl⟩,
    Mode.ofBits_eq_some_iff, Psr.ofWord?_toWord, fun _ _ => Psr.toWord_of_ofWord?, fun w hw => ?_⟩
  exact Option.ne_none_iff_exists'.mp fun h => hw ((Psr.ofWord?_eq_none w).mp h)

/-- The reset sequence leaves the hidden state of a boundary (10_state.md R40). -/
theorem State.afterReset_inv {cfg : Config} {mem : Memory} (irq fiq : Bool) (hc : ConfigOk cfg)
    (hm : mem.wf) : (State.afterReset cfg mem irq fiq).Inv :=
  ⟨hm, rfl, rfl, hc⟩

/-- Settles O46: any canonical memory and word-aligned VECTOR_BASE, then the defaults. -/
theorem resetSatisfiesInvariant : Obligations.ResetSatisfiesInvariant :=
  ⟨State.afterReset_inv false false (by decide) (by decide),
    fun _ _ irq fiq hc hm => State.afterReset_inv irq fiq hc hm⟩

/-! The banking map (10_state.md R24). -/

theorem phys_of_lt_eight (b : Bool) (m : Mode) {i : Reg} (h : i.val < 8) :
    phys b m i = some (.low ⟨i.val, h⟩) := by
  simp [phys, h]

theorem phys_of_mid (b : Bool) (m : Mode) {i : Reg} {k : Fin 5} (h : i.val = 8 + k.val) :
    phys b m i = some (if m = .fiq ∧ b = true then .midFiq k else .mid k) := by
  have hk := k.isLt
  simp [phys, h, show 8 + k.val < 13 by omega, apply_ite]

/-- Settles O18, by the banking map at each range of register numbers. -/
theorem bankingMap : Obligations.BankingMap := by
  intro s
  refine ⟨s.reg_fifteen, State.reg_of_phys (by simp), State.reg_of_phys (by simp),
    fun i h => State.reg_of_phys (phys_of_lt_eight _ _ h), fun i k h => ?_,
    rfl, rfl, rfl, rfl, rfl, rfl, rfl⟩
  rw [State.reg_of_phys (phys_of_mid _ _ h), apply_ite s.regs.read]

/-! Accesses to an SPSR that is not there (10_state.md R36). -/

/-- Each writing data-processing instruction runs the executor of an ALU operation, with the SBZ check
of Rn where Rn is not read. -/
theorem exec_writingOp {e : WritingOp} (he : e ∈ writingOps) :
    ∃ op : AluOp, ∀ (a : DpArgs) (s : State),
      exec (e.instr a) s = execute a.cond (dpBody op (!e.readsRn && a.rn != 0) a) s := by
  simp only [writingOps, List.mem_cons, List.not_mem_nil, or_false] at he
  rcases he with rfl | rfl | rfl | rfl | rfl | rfl | rfl | rfl | rfl | rfl | rfl | rfl <;>
    exact ⟨_, fun _ _ => rfl⟩

theorem execute_traps_undefined {c : Cond} {body : State → Except NonOk State} {s : State}
    {r : UndefReason} (hc : Passes c s)
    (hb : body { s with pcWritten := false } = .error (.undefinedInstruction r)) :
    TrapsUndefined s (execute c body s) r := by
  rw [execute_error hc hb]
  exact settle_undefined s r

theorem returnFromException_without_spsr {s : State} (h : s.spsr? = none) (v : Word) :
    returnFromException v s = .error (.undefinedInstruction .returnWithoutSpsr) := by
  simp [returnFromException, h]

/-- A return without an SPSR traps (42_data_processing.md R152). -/
theorem dpBody_return_without_spsr {op : AluOp} {sbz : Bool} {a : DpArgs} {s : State} {sh : Shifted}
    (hs : s.spsr? = none) (ha : OperandAllowed s a.rn a.rd a.op2)
    (hz : s.cfg.strict = true → sbz = false) (hsh : shifterOperand a.op2 s = .ok sh)
    (hd : a.rd = 15) (h : a.s = true) :
    dpBody op sbz a s = .error (.undefinedInstruction .returnWithoutSpsr) := by
  unfold dpBody
  rw [strictChecksDp_none ha hz, hsh]
  simp [h, hd, returnFromException_without_spsr hs]

theorem mrsBody_without_spsr {a : MrsArgs} {s : State} (hs : s.spsr? = none) (hd : a.rd ≠ 15)
    (h : a.spsr = true) : mrsBody a s = .error (.undefinedInstruction .noSpsr) := by
  simp [mrsBody, hd, h, hs]

theorem msrChecks_without_spsr {imm c sbz : Bool} {s : State} (hs : s.spsr? = none)
    (hz : s.cfg.strict = true → sbz = false) (hc : imm = true → c = false) :
    msrChecks imm true c sbz s = some (.undefinedInstruction .noSpsr) := by
  have hz' : (s.cfg.strict && sbz) = false := by simpa using hz
  have hc' : (c && imm) = false := by
    cases imm
    · simp
    · simp [hc rfl]
  simp [msrChecks, hz', hc', hs]

theorem msrRegBody_without_spsr {a : MsrRegArgs} {s : State} (hs : s.spsr? = none)
    (hz : s.cfg.strict = true → a.sbz = 0#8) (h : a.spsr = true) :
    msrRegBody a s = .error (.undefinedInstruction .noSpsr) := by
  unfold msrRegBody
  rw [h, msrChecks_without_spsr hs (fun hst => by simp [hz hst]) (fun hi => absurd hi (by decide))]

theorem msrImmBody_without_spsr {a : MsrImmArgs} {s : State} (hs : s.spsr? = none)
    (hc : a.c = false) (h : a.spsr = true) :
    msrImmBody a s = .error (.undefinedInstruction .noSpsr) := by
  unfold msrImmBody
  rw [h, msrChecks_without_spsr hs (fun _ => rfl) (fun _ => hc)]

/-- Settles O42: the SPSR by mode, and the trap of each access where there is none. -/
theorem spsrGate : Obligations.SpsrGate := by
  intro s
  refine ⟨State.spsr?_eq_some (m := .fiq), State.spsr?_eq_some (m := .irq),
    State.spsr?_eq_some (m := .svc), State.spsr?_eq_some (m := .abt),
    State.spsr?_eq_some (m := .und), fun h => ?_⟩
  have hs : s.spsr? = none := State.spsr?_eq_none h
  refine ⟨hs, fun a hc hd hr => ?_, fun a hc hr hz => ?_, fun a hc hr hctl => ?_,
    fun e he a sh hc ha hrn hsh hd hS => ?_⟩
  · exact execute_traps_undefined hc (mrsBody_without_spsr hs hd hr)
  · exact execute_traps_undefined hc (msrRegBody_without_spsr hs hz hr)
  · exact execute_traps_undefined hc (msrImmBody_without_spsr hs hctl hr)
  · obtain ⟨op, hop⟩ := exec_writingOp he
    rw [hop]
    refine execute_traps_undefined hc (dpBody_return_without_spsr hs ha (fun hst => ?_) hsh hd hS)
    cases hread : e.readsRn
    · simp [hrn hread hst]
    · rfl

end Sys2Proof.Machine
end

section
/-! Two User-mode states that agree on what User mode can name run in step (60_exceptions.md R277). -/

namespace Sys2Proof.Machine

/-! Operations that read and write through the banking map keep the agreement. -/

/-- A CPSR write within one mode changes no visible register (10_state.md R24). -/
theorem State.reg_withCpsr {s : State} {p : Psr} (h : p.mode = s.cpsr.mode) (i : Reg) :
    ({ s with cpsr := p } : State).reg i = s.reg i := by
  simp [State.reg, h]

/-- A register that User mode names holds the same word in both states. -/
theorem UserAgree.read {s t : State} (h : UserAgree s t) {i : Reg} {p : PhysReg}
    (hp : phys s.cfg.fiqBanks .usr i = some p) : s.regs.read p = t.regs.read p := by
  have hs : phys s.cfg.fiqBanks s.cpsr.mode i = some p := by rwa [h.user]
  have ht : phys t.cfg.fiqBanks t.cpsr.mode i = some p := by rwa [← h.cfg, ← h.cpsr]
  rw [← State.reg_of_phys hs, ← State.reg_of_phys ht, h.visible]

theorem UserAgree.strict {s t : State} (h : UserAgree s t) : s.cfg.strict = t.cfg.strict :=
  congrArg Config.strict h.cfg

theorem UserAgree.spsr?_left {s t : State} (h : UserAgree s t) : s.spsr? = none :=
  State.spsr?_eq_none (.inl h.user)

theorem UserAgree.spsr?_right {s t : State} (h : UserAgree s t) : t.spsr? = none :=
  State.spsr?_eq_none (.inl (h.cpsr ▸ h.user))

theorem UserAgree.setReg {s t : State} (h : UserAgree s t) (i : Reg) (v : Word) :
    UserAgree (s.setReg i v) (t.setReg i v) where
  cfg := by simp [h.cfg]
  pc := by simp [h.pc]
  cpsr := by simp [h.cpsr]
  user := by simp [h.user]
  visible j := by
    by_cases hj : j = i
    · subst hj
      by_cases h15 : j = 15
      · subst h15
        simp [State.reg_fifteen, h.pc]
      · rw [State.reg_setReg_same s v h15, State.reg_setReg_same t v h15]
    · rw [State.reg_setReg_other s v hj, State.reg_setReg_other t v hj, h.visible]
  mem := by simp [h.mem]
  phase := by simp [h.phase]
  ir := by simp [h.ir]
  pcNext := by
    by_cases h15 : i = 15
    · simp [h15]
    · rw [State.setReg_pcNext_of_ne s v h15, State.setReg_pcNext_of_ne t v h15, h.pcNext]
  pcWritten := by
    by_cases h15 : i = 15
    · simp [h15]
    · rw [State.setReg_pcWritten_of_ne s v h15, State.setReg_pcWritten_of_ne t v h15, h.pcWritten]
  irqReq := by simp [h.irqReq]
  fiqReq := by simp [h.fiqReq]
  run := by simp [h.run]
  report := by simp [h.report]

theorem UserAgree.withCpsr {s t : State} (h : UserAgree s t) {p : Psr} (hp : p.mode = .usr) :
    UserAgree { s with cpsr := p } { t with cpsr := p } :=
  { h with
    cpsr := rfl
    user := hp
    visible := fun i => by
      rw [State.reg_withCpsr (hp.trans h.user.symm),
        State.reg_withCpsr (hp.trans (h.cpsr ▸ h.user.symm)), h.visible] }

theorem UserAgree.withPcWritten {s t : State} (h : UserAgree s t) (b : Bool) :
    UserAgree { s with pcWritten := b } { t with pcWritten := b } :=
  { h with pcWritten := rfl, visible := h.visible }

theorem UserAgree.fetched {s t : State} (h : UserAgree s t) (w : Word) :
    UserAgree (s.fetched w) (t.fetched w) :=
  { h with phase := rfl, ir := rfl, visible := h.visible }

theorem UserAgree.commit {s t : State} (h : UserAgree s t) : UserAgree s.commit t.commit where
  cfg := h.cfg
  pc := by simp [State.nextPc, h.pcWritten, h.pcNext, h.pc]
  cpsr := h.cpsr
  user := h.user
  visible i := by
    by_cases h15 : i = 15
    · subst h15
      simp [State.nextPc, h.pcWritten, h.pcNext, h.pc]
    · obtain ⟨p, hp⟩ := phys_of_ne s.cfg.fiqBanks .usr h15
      rw [State.reg_of_phys (s := s.commit) (by rwa [State.commit_cfg, State.commit_cpsr, h.user]),
        State.reg_of_phys (s := t.commit)
          (by rwa [State.commit_cfg, State.commit_cpsr, ← h.cfg, ← h.cpsr, h.user])]
      exact h.read hp
  mem := h.mem
  phase := rfl
  ir := h.ir
  pcNext := h.pcNext
  pcWritten := rfl
  irqReq := h.irqReq
  fiqReq := h.fiqReq
  run := h.run
  report := rfl

/-- A skip is the commit of a step that wrote nothing (40_condition.md R122). -/
theorem State.skip_eq_commit (s : State) : s.skip = { s with pcWritten := false }.commit := rfl

theorem UserAgree.skip {s t : State} (h : UserAgree s t) : UserAgree s.skip t.skip := by
  rw [State.skip_eq_commit, State.skip_eq_commit]
  exact (h.withPcWritten false).commit

theorem UserAgree.record {s t : State} (h : UserAgree s t) (o : NonOk) : s.record o = t.record o := by
  unfold State.record
  rw [h.pc, h.ir]

theorem UserAgree.trapReported {s t : State} (h : UserAgree s t) (o : NonOk) :
    UserAgree (trapReported o s) (trapReported o t) :=
  { h with
    pcWritten := rfl, phase := rfl, run := rfl
    report := congrArg some (h.record o)
    visible := h.visible }

/-! Operands are read alike. -/

theorem UserAgree.regInShift {s t : State} (h : UserAgree s t) (i : Reg) :
    s.regInShift i = t.regInShift i := by
  unfold State.regInShift
  rw [h.pc, h.visible]

theorem UserAgree.shifterOperand {s t : State} (h : UserAgree s t) (o : Operand2) :
    shifterOperand o s = shifterOperand o t := by
  cases o with
  | imm rotate imm8 => simp only [Machine.shifterOperand, h.cpsr]
  | shiftImm rm st amount => simp only [Machine.shifterOperand, h.cpsr, h.visible]
  | shiftReg rm st rs => simp only [Machine.shifterOperand, h.cpsr, h.visible, h.regInShift]

theorem UserAgree.operand1 {s t : State} (h : UserAgree s t) (rn : Reg) (o : Operand2) :
    operand1 rn o s = operand1 rn o t := by
  cases o with
  | imm | shiftImm => exact h.visible rn
  | shiftReg => exact h.regInShift rn

theorem UserAgree.msrChecks {s t : State} (h : UserAgree s t) (imm spsr c sbz : Bool) :
    msrChecks imm spsr c sbz s = msrChecks imm spsr c sbz t := by
  simp only [Machine.msrChecks, h.cfg, h.cpsr, h.spsr?_left, h.spsr?_right]

/-! The executors. -/

/-- Two executor results that agree: the same outcome, or writes that again agree. -/
inductive ResultsAgree : Except NonOk State → Except NonOk State → Prop
  | error (o : NonOk) : ResultsAgree (.error o) (.error o)
  | ok {s t : State} (h : UserAgree s t) : ResultsAgree (.ok s) (.ok t)

/-- A return traps in User mode, in both states (42_data_processing.md R152). -/
theorem returnFromException_agree {s t : State} (h : UserAgree s t) (v : Word) :
    ResultsAgree (returnFromException v s) (returnFromException v t) := by
  rw [returnFromException_without_spsr h.spsr?_left, returnFromException_without_spsr h.spsr?_right]
  exact .error _

theorem dpBody_agree (op : AluOp) (sbz : Bool) (a : DpArgs) {s t : State} (h : UserAgree s t) :
    ResultsAgree (dpBody op sbz a s) (dpBody op sbz a t) := by
  unfold dpBody
  rw [← h.strict, ← h.cpsr, ← h.shifterOperand, ← h.operand1]
  split
  · exact .error _
  · split
    · exact .error _
    · dsimp only
      split
      · split
        · exact returnFromException_agree h _
        · exact .ok ((h.setReg _ _).withCpsr h.user)
      · exact .ok (h.setReg _ _)

theorem testBody_agree (op : AluOp) (a : TestArgs) {s t : State} (h : UserAgree s t) :
    ResultsAgree (testBody op a s) (testBody op a t) := by
  unfold testBody
  rw [← h.strict, ← h.cpsr, ← h.shifterOperand, ← h.operand1]
  split
  · exact .error _
  · split
    · exact .error _
    · exact .ok (h.withCpsr h.user)

theorem mulBody_agree (acc : Bool) (op : Word → Word → Word → Word) (a : MulArgs) {s t : State}
    (h : UserAgree s t) : ResultsAgree (mulBody acc op a s) (mulBody acc op a t) := by
  unfold mulBody
  simp only [← h.strict, ← h.cpsr, ← h.visible]
  split
  · exact .error _
  · refine .ok ?_
    split
    · exact (h.setReg _ _).withCpsr h.user
    · exact h.setReg _ _

theorem mullBody_agree (op : Word → Word → BitVec 64 → BitVec 64) (a : MullArgs) {s t : State}
    (h : UserAgree s t) : ResultsAgree (mullBody op a s) (mullBody op a t) := by
  unfold mullBody
  simp only [← h.cpsr, ← h.visible]
  split
  · exact .error _
  · refine .ok ?_
    split
    · exact ((h.setReg _ _).setReg _ _).withCpsr h.user
    · exact (h.setReg _ _).setReg _ _

theorem mrsBody_agree (a : MrsArgs) {s t : State} (h : UserAgree s t) :
    ResultsAgree (mrsBody a s) (mrsBody a t) := by
  unfold mrsBody
  rw [h.spsr?_left, h.spsr?_right, ← h.cpsr]
  split
  · exact .error _
  · split
    · exact .error _
    · exact .ok (h.setReg _ _)

/-- The merged CPSR word keeps its mode without the control enable (44_psr_transfer.md R214). -/
theorem ofWord?_msrMerge_mode {f : Bool} {p q : Psr} {v : Word}
    (h : Psr.ofWord? (msrMerge f false p.toWord v) = some q) : q.mode = p.mode := by
  obtain ⟨-, -, -, -, -, -, -, -, hm⟩ := Psr.ofWord?_some h
  have hb : q.mode.bits = p.mode.bits := by simpa [msrMerge_mode, Psr.toWord_mode] using hm
  simpa using congrArg Mode.ofBits hb

/-- An MSR that User mode may make writes the CPSR flags alone (44_psr_transfer.md R213, R214). -/
theorem msrWrite_agree (f : Bool) (v : Word) {s t : State} (h : UserAgree s t) :
    ResultsAgree (msrWrite false f false v s) (msrWrite false f false v t) := by
  unfold msrWrite
  rw [← h.cpsr]
  simp only [Bool.false_eq_true, if_false, Bool.and_false, Bool.false_and]
  split
  · exact .error _
  · rename_i p hp
    exact .ok (h.withCpsr ((ofWord?_msrMerge_mode hp).trans h.user))

/-- Without a trap, an MSR of User mode names the CPSR and writes no control bit
(44_psr_transfer.md R213). -/
theorem msrChecks_none_of_user {imm spsr c sbz : Bool} {s : State} (hu : s.cpsr.mode = .usr)
    (h : msrChecks imm spsr c sbz s = none) : spsr = false ∧ c = false := by
  have hs : s.spsr? = none := State.spsr?_eq_none (.inl hu)
  unfold msrChecks at h
  split at h
  · cases h
  · split at h
    · cases h
    · split at h
      · cases h
      · split at h
        · cases h
        · rename_i hspsr hc
          exact ⟨by simpa [hs] using hspsr, by simpa [hu] using hc⟩

theorem msrRegBody_agree (a : MsrRegArgs) {s t : State} (h : UserAgree s t) :
    ResultsAgree (msrRegBody a s) (msrRegBody a t) := by
  unfold msrRegBody
  rw [← h.msrChecks, ← h.visible]
  split
  · exact .error _
  · rename_i hn
    obtain ⟨hr, hc⟩ := msrChecks_none_of_user h.user hn
    rw [hr, hc]
    exact msrWrite_agree _ _ h

theorem msrImmBody_agree (a : MsrImmArgs) {s t : State} (h : UserAgree s t) :
    ResultsAgree (msrImmBody a s) (msrImmBody a t) := by
  unfold msrImmBody
  rw [← h.msrChecks, ← h.cpsr]
  split
  · exact .error _
  · rename_i hn
    rw [(msrChecks_none_of_user h.user hn).1]
    exact msrWrite_agree _ _ h

theorem branchBody_agree (a : BranchArgs) {s t : State} (h : UserAgree s t) :
    ResultsAgree (branchBody a s) (branchBody a t) := by
  unfold branchBody
  rw [← h.pc]
  exact .ok (h.setReg _ _)

theorem branchLinkBody_agree (a : BranchArgs) {s t : State} (h : UserAgree s t) :
    ResultsAgree (branchLinkBody a s) (branchLinkBody a t) := by
  unfold branchLinkBody
  rw [← h.pc]
  exact .ok ((h.setReg _ _).setReg _ _)

theorem branchExchangeBody_agree (a : BxArgs) {s t : State} (h : UserAgree s t) :
    ResultsAgree (branchExchangeBody a s) (branchExchangeBody a t) := by
  unfold branchExchangeBody
  rw [← h.visible, ← h.cpsr]
  exact .ok ((h.setReg _ _).withCpsr h.user)

/-- Every executor computes its writes from what User mode can name. -/
theorem Executor.agree {body : State → Except NonOk State} (hb : Executor body) {s t : State}
    (h : UserAgree s t) : ResultsAgree (body s) (body t) := by
  cases hb with
  | dp op sbz a => exact dpBody_agree op sbz a h
  | test op a => exact testBody_agree op a h
  | mul acc op a => exact mulBody_agree acc op a h
  | mull op a => exact mullBody_agree op a h
  | mrs a => exact mrsBody_agree a h
  | msrReg a => exact msrRegBody_agree a h
  | msrImm a => exact msrImmBody_agree a h
  | branch a => exact branchBody_agree a h
  | branchLink a => exact branchLinkBody_agree a h
  | branchExchange a => exact branchExchangeBody_agree a h
  | raise o => exact .error o

/-! The step. -/

/-- Two states that entered the same exception of mode `m`, with the same return address and saved
CPSR; `fiqBanks` is FIQ_BANKS_R8_R12 (60_exceptions.md R270, 10_state.md R24). -/
structure EnteredAlike (fiqBanks : Bool) (m : ExcMode) (s t : State) : Prop where
  mode : s.cpsr.mode = m.mode
  cpsr : s.cpsr = t.cpsr
  pc : s.pc = t.pc
  saved : s.spsrs.read m = t.spsrs.read m
  link : s.regs.read (.lr m.bank) = t.regs.read (.lr m.bank)
  report : s.report = t.report
  run : s.run = t.run
  mem : s.mem = t.mem
  user : ∀ (i : Reg) (p : PhysReg), phys fiqBanks .usr i = some p → s.regs.read p = t.regs.read p

/-- Two answers that agree: the same fault or refusal, or next states that agree again or entered the
same exception. -/
inductive OutsAgree (fiqBanks : Bool) : Out → Out → Prop
  | fault (f : Fault) : OutsAgree fiqBanks (.fault f) (.fault f)
  | refused (r : Refusal) : OutsAgree fiqBanks (.refused r) (.refused r)
  | next {s t : State} (h : UserAgree s t) : OutsAgree fiqBanks (.next s) (.next t)
  | entered {s t : State} {m : ExcMode} (h : EnteredAlike fiqBanks m s t) :
    OutsAgree fiqBanks (.next s) (.next t)

theorem trapEntered_alike (k : ExcKind) (o : NonOk) {s t : State} (h : UserAgree s t) :
    EnteredAlike s.cfg.fiqBanks k.target (trapEntered k o s) (trapEntered k o t) where
  mode := rfl
  cpsr := by simp [h.cpsr]
  pc := by simp [h.cfg]
  saved := by simp [h.cfg, h.cpsr]
  link := by simp [h.cfg, h.pc]
  report := congrArg some (h.record o)
  run := h.run
  mem := h.mem
  user i p hp := by
    simp only [trapEntered_regs, RegFile.read_write, h.read hp, ← h.cfg, ← h.pc]

theorem routeTrap_agree (k : ExcKind) (o : NonOk) {s t : State} (h : UserAgree s t) :
    OutsAgree s.cfg.fiqBanks (.next (routeTrap k o s)) (.next (routeTrap k o t)) := by
  unfold routeTrap
  rw [← h.cfg]
  split
  · exact .entered (trapEntered_alike k o h)
  · exact .next (h.trapReported o)

theorem settle_agree (o : NonOk) {s t : State} (h : UserAgree s t) :
    OutsAgree s.cfg.fiqBanks (settle o s) (settle o t) := by
  cases o with
  | undefinedInstruction r => exact routeTrap_agree _ _ h
  | softwareInterrupt c => exact routeTrap_agree _ _ h
  | fetchFault a =>
    unfold settle
    dsimp only
    rw [← h.cfg]
    split
    · exact .fault _
    · exact routeTrap_agree _ _ h
  | refused r => exact .refused r
  | unpredictable r => exact .fault _
  | interruptTaken k => exact .entered (trapEntered_alike _ _ h)
  | classificationFailure w => exact .fault _

theorem execute_agree {c : Cond} {body : State → Except NonOk State} (hb : Executor body)
    {s t : State} (h : UserAgree s t) :
    OutsAgree s.cfg.fiqBanks (execute c body s) (execute c body t) := by
  have ht : conditionPassed c t.cpsr = conditionPassed c s.cpsr := by rw [h.cpsr]
  match hc : conditionPassed c s.cpsr with
  | none =>
    rw [execute_reserved hc, execute_reserved (ht.trans hc)]
    exact settle_agree _ h
  | some false =>
    rw [execute_failed hc, execute_failed (ht.trans hc)]
    exact .next h.skip
  | some true =>
    have hr := hb.agree (h.withPcWritten false)
    generalize hx : body { s with pcWritten := false } = x at hr
    generalize hy : body { t with pcWritten := false } = y at hr
    cases hr with
    | error o =>
      rw [execute_error hc hx, execute_error (ht.trans hc) hy]
      exact settle_agree o h
    | ok hw =>
      rw [execute_ok hc hx, execute_ok (ht.trans hc) hy]
      exact .next hw.commit

theorem exec_agree (i : Instr) {s t : State} (h : UserAgree s t) :
    OutsAgree s.cfg.fiqBanks (exec i s) (exec i t) := by
  obtain ⟨body, hb, he⟩ := exec_eq_execute i
  rw [he, he]
  exact execute_agree hb h

theorem UserAgree.boundaryInterrupt {s t : State} (h : UserAgree s t) :
    boundaryInterrupt s = boundaryInterrupt t := by
  simp only [Machine.boundaryInterrupt, h.cfg, h.cpsr, h.irqReq, h.fiqReq]

theorem UserAgree.fetch {s t : State} (h : UserAgree s t) : s.fetch = t.fetch := by
  simp only [State.fetch, h.cfg, h.mem, h.pc]

/-- The simulation: one step from two User-mode states that agree (46_dispatch.md R250). -/
theorem step_agree {s t : State} (h : UserAgree s t) :
    OutsAgree s.cfg.fiqBanks (step s) (step t) := by
  unfold step
  rw [← h.run, ← h.boundaryInterrupt, ← h.cpsr, ← h.pc, ← h.fetch]
  split
  · exact .next h
  · exact .next h
  · exact .next h
  · split
    · exact settle_agree _ h
    · split
      · exact settle_agree _ h
      · split
        · exact settle_agree _ h
        · split
          · exact settle_agree _ h
          · split
            · exact settle_agree _ (h.fetched _)
            · exact exec_agree _ (h.fetched _)

/-- Settles O50, by the one-step simulation `step_agree`: its four answers are the clauses. -/
theorem userModeIsolation : Obligations.UserModeIsolation := by
  intro s t h
  have hstep := step_agree h
  generalize step s = out at hstep
  generalize step t = out' at hstep
  cases hstep with
  | fault f => exact ⟨fun _ => .rfl, fun _ => .rfl, fun _ hn => nomatch hn⟩
  | refused r => exact ⟨fun _ => .rfl, fun _ => .rfl, fun _ hn => nomatch hn⟩
  | next hst =>
    refine ⟨fun _ => ⟨nofun, nofun⟩, fun _ => ⟨nofun, nofun⟩, fun s' hn => ?_⟩
    cases hn
    exact ⟨_, rfl, .inl hst⟩
  | @entered _ _ m he =>
    refine ⟨fun _ => ⟨nofun, nofun⟩, fun _ => ⟨nofun, nofun⟩, fun s' hn => ?_⟩
    cases hn
    obtain ⟨h1, h2, h3, h4, h5, h6, h7, h8, h9⟩ := he
    exact ⟨_, rfl, .inr ⟨m, h1, h2, h3, h4, h5, h6, h7, h8, h9⟩⟩

end Sys2Proof.Machine
end

section
/-! The bytes of an instruction, and what every step leaves alone (20_memory.md). -/

namespace Sys2Proof

/-! Four bytes make a word in the order of FETCH_ENDIAN (20_memory.md R66). -/

/-- Four bytes whose word decodes give its instruction, and the bytes after them are left. -/
theorem decodeBytes_of_decodeWord {e : Endian} {b0 b1 b2 b3 : Byte} {i : Instr}
    (h : decodeWord (wordOfBytes e b0 b1 b2 b3) = .ok i) (rest : List Byte) :
    decodeBytes e (b0 :: b1 :: b2 :: b3 :: rest) = .ok (i, rest) := by
  simp [decodeBytes, h]

/-- An instruction takes four bytes, whatever the order (30_encoding.md R80). -/
theorem decodeBytes_of_length_lt (e : Endian) {bs : List Byte} (h : bs.length < 4) :
    decodeBytes e bs = .error .truncated := by
  match bs with
  | [] | [_] | [_, _] | [_, _, _] => rfl
  | _ :: _ :: _ :: _ :: rest =>
    simp only [List.length_cons] at h
    omega

/-- Settles O5: `wordOfBytes` at each byte order, and the short list. -/
theorem bytesDecodeInOrder : Obligations.BytesDecodeInOrder :=
  ⟨fun _ _ _ _ rest _ => ⟨fun h => decodeBytes_of_decodeWord (e := .little) h rest,
      fun h => decodeBytes_of_decodeWord (e := .big) h rest⟩,
    fun e _ h => decodeBytes_of_length_lt e h⟩

end Sys2Proof

namespace Sys2Proof.Machine

/-! What every step leaves alone. -/

/-- `t` has the memory, the parameters and the interrupt levels of `s`: what no step changes
(20_memory.md R64, log 1, 12 and 19). -/
structure KeepsSurroundings (s t : State) : Prop where
  mem : t.mem = s.mem
  cfg : t.cfg = s.cfg
  irqReq : t.irqReq = s.irqReq
  fiqReq : t.fiqReq = s.fiqReq

theorem KeepsSurroundings.refl (s : State) : KeepsSurroundings s s := ⟨rfl, rfl, rfl, rfl⟩

theorem KeepsSurroundings.trans {s t u : State} (h : KeepsSurroundings s t)
    (g : KeepsSurroundings t u) : KeepsSurroundings s u :=
  ⟨g.mem.trans h.mem, g.cfg.trans h.cfg, g.irqReq.trans h.irqReq, g.fiqReq.trans h.fiqReq⟩

theorem BodyFrame.keepsSurroundings {s t : State} (h : BodyFrame s t) : KeepsSurroundings s t :=
  ⟨h.mem, h.cfg, h.irqReq, h.fiqReq⟩

theorem State.fetched_keepsSurroundings (s : State) (w : Word) :
    KeepsSurroundings s (s.fetched w) :=
  ⟨s.fetched_mem w, s.fetched_cfg w, s.fetched_irqReq w, s.fetched_fiqReq w⟩

theorem State.skip_keepsSurroundings (s : State) : KeepsSurroundings s s.skip :=
  ⟨s.skip_mem, s.skip_cfg, s.skip_irqReq, s.skip_fiqReq⟩

theorem State.commit_keepsSurroundings (s : State) : KeepsSurroundings s s.commit :=
  ⟨s.commit_mem, s.commit_cfg, s.commit_irqReq, s.commit_fiqReq⟩

theorem trapEntered_keepsSurroundings (k : ExcKind) (o : NonOk) (s : State) :
    KeepsSurroundings s (trapEntered k o s) :=
  ⟨trapEntered_mem k o s, trapEntered_cfg k o s, trapEntered_irqReq k o s,
    trapEntered_fiqReq k o s⟩

theorem trapReported_keepsSurroundings (o : NonOk) (s : State) :
    KeepsSurroundings s (trapReported o s) :=
  ⟨trapReported_mem o s, trapReported_cfg o s, trapReported_irqReq o s, trapReported_fiqReq o s⟩

theorem routeTrap_keepsSurroundings (k : ExcKind) (o : NonOk) (s : State) :
    KeepsSurroundings s (routeTrap k o s) := by
  rcases routeTrap_cases k o s with ⟨-, h⟩ | ⟨-, h⟩
  · rw [h]
    exact trapEntered_keepsSurroundings k o s
  · rw [h]
    exact trapReported_keepsSurroundings o s

/-- No instruction stores (20_memory.md R64, 70_reset_and_hazards.md R298). -/
theorem exec_keepsSurroundings {i : Instr} {s t : State} (h : exec i s = .next t) :
    KeepsSurroundings s t := by
  rcases exec_next h with ⟨k, o, rfl⟩ | ⟨k, rfl⟩ | rfl | ⟨u, hu, rfl⟩
  · exact routeTrap_keepsSurroundings k o s
  · exact trapEntered_keepsSurroundings k.exc _ s
  · exact s.skip_keepsSurroundings
  · exact hu.keepsSurroundings.trans u.commit_keepsSurroundings

theorem step_keepsSurroundings {s t : State} (h : step s = .next t) : KeepsSurroundings s t := by
  rcases step_next h with ⟨-, rfl⟩ | ⟨-, k, -, rfl⟩ | ⟨-, -, -, rfl⟩ | ⟨-, w, i, -, -, h⟩
  · exact .refl _
  · exact trapEntered_keepsSurroundings k.exc _ s
  · exact routeTrap_keepsSurroundings .prefetchAbort _ s
  · exact (s.fetched_keepsSurroundings w).trans (exec_keepsSurroundings h)

/-- Settles O48, by the frame of each way a step can end in a next state. -/
theorem stepChangesNoMemory : Obligations.StepChangesNoMemory := by
  intro s t h
  obtain ⟨hmem, hcfg, hirq, hfiq⟩ := step_keepsSurroundings h
  exact ⟨hmem, hcfg, hirq, hfiq⟩

end Sys2Proof.Machine
end

section
/-! The rows of the opcode table as mask tests, and the classifier (30_encoding.md R101, R110). -/

namespace Sys2Proof

/-! Mask tests. -/

@[simp] theorem maskTest_nibble (x v : BitVec 4) : maskTest x 15#4 v = (x == v) := by
  rw [maskTest, show 15#4 = BitVec.allOnes 4 from rfl, BitVec.and_allOnes]

@[simp] theorem maskTest_ofNat {n k : Nat} (mask value : BitVec n) :
    maskTest (BitVec.ofNat n k) mask value = (BitVec.ofNat n k &&& mask == value) := rfl

theorem twoPow_ne_zero {n i : Nat} (hi : i < n) : BitVec.twoPow n i ≠ 0#n := fun h => by
  simpa [hi] using congrArg (·.getLsbD i) h

theorem maskTest_twoPow {n : Nat} (x : BitVec n) {i : Nat} (hi : i < n) :
    maskTest x (BitVec.twoPow n i) (BitVec.twoPow n i) = x.getLsbD i := by
  rw [maskTest, BitVec.and_twoPow]
  cases x.getLsbD i
  · simp [(twoPow_ne_zero hi).symm]
  · simp

theorem maskTest_twoPow_zero {n : Nat} (x : BitVec n) {i : Nat} (hi : i < n) :
    maskTest x (BitVec.twoPow n i) 0#n = !x.getLsbD i := by
  rw [maskTest, BitVec.and_twoPow]
  cases x.getLsbD i
  · simp
  · simp [twoPow_ne_zero hi]

/-- Two mask tests are one mask test of the bits of both. -/
theorem maskTest_or {n : Nat} {w mask value mask' value' : BitVec n}
    (h : maskTest w mask value = true) (h' : maskTest w mask' value' = true) :
    maskTest w (mask ||| mask') (value ||| value') = true := by
  simp only [maskTest, beq_iff_eq] at *
  rw [BitVec.and_or_distrib_left, h, h']

/-- Every word that passes the first mask test passes the second. -/
def maskWithin {n : Nat} (mask value mask' value' : BitVec n) : Bool :=
  maskTest mask mask' mask' && maskTest value mask' value'

theorem maskTest_of_maskWithin {n : Nat} {w mask value mask' value' : BitVec n}
    (h : maskTest w mask value = true) (hin : maskWithin mask value mask' value' = true) :
    maskTest w mask' value' = true := by
  simp only [maskWithin, maskTest, Bool.and_eq_true, beq_iff_eq] at *
  obtain ⟨hm, hv⟩ := hin
  rw [← hv, ← h, BitVec.and_assoc, hm]

/-- No word passes both mask tests: they fix a bit differently. -/
def maskDisjoint {n : Nat} (mask value mask' value' : BitVec n) : Bool :=
  mask &&& mask' &&& (value ^^^ value') != 0#n

theorem maskTest_of_maskDisjoint {n : Nat} {w mask value mask' value' : BitVec n}
    (h : maskTest w mask value = true) (hd : maskDisjoint mask value mask' value' = true) :
    maskTest w mask' value' = false := by
  rw [Bool.eq_false_iff]
  intro h'
  simp only [maskTest, maskDisjoint, beq_iff_eq, bne_iff_ne] at *
  apply hd
  rw [← h, ← h']
  ext i hi
  simp only [BitVec.getElem_and, BitVec.getElem_xor, BitVec.getElem_zero]
  cases w[i] <;> cases mask[i] <;> cases mask'[i] <;> rfl

/-- A mask test with bit `b` open is the mask test with that bit 0, or with that bit 1. -/
theorem maskTest_split {w mask value : Word} (b : Nat) (h : maskTest w mask value = true) :
    maskTest w (mask ||| BitVec.twoPow 32 b) value = true ∨
      maskTest w (mask ||| BitVec.twoPow 32 b) (value ||| BitVec.twoPow 32 b) = true := by
  simp only [maskTest, beq_iff_eq] at *
  rw [BitVec.and_or_distrib_left, h, BitVec.and_twoPow]
  cases w.getLsbD b
  · exact .inl (by simp)
  · exact .inr rfl

/-! Coverage of one mask test by several. -/

/-- The mask test, split at those of the bits `bits` that it leaves open, lies within `tests` piece
by piece: a sufficient check that whatever passes it passes one of `tests`. -/
def maskCovered (tests : List (Word × Word)) (mask value : Word) : List Nat → Bool
  | [] => tests.any fun c => maskWithin mask value c.1 c.2
  | b :: bits =>
    if mask.getLsbD b then maskCovered tests mask value bits
    else
      maskCovered tests (mask ||| BitVec.twoPow 32 b) value bits &&
        maskCovered tests (mask ||| BitVec.twoPow 32 b) (value ||| BitVec.twoPow 32 b) bits

theorem exists_of_maskCovered {tests : List (Word × Word)} {w : Word} (bits : List Nat)
    {mask value : Word} (h : maskTest w mask value = true)
    (hc : maskCovered tests mask value bits = true) :
    ∃ c ∈ tests, maskTest w c.1 c.2 = true := by
  induction bits generalizing mask value with
  | nil =>
    obtain ⟨c, hmem, hin⟩ := List.any_eq_true.mp hc
    exact ⟨c, hmem, maskTest_of_maskWithin h hin⟩
  | cons b bits ih =>
    unfold maskCovered at hc
    split at hc
    · exact ih h hc
    · obtain ⟨h0, h1⟩ := Bool.and_eq_true_iff.mp hc
      exact (maskTest_split b h).elim (ih · h0) (ih · h1)

/-! The rows of a class. -/

/-- The rows of the opcode table in the class of a classifier entry. -/
def ClassEntry.rows (e : ClassEntry) : List Row := opcodeTable.filter (·.cls == e.cls)

/-- The opcode table lists the rows class by class, in the order of the classifier. -/
theorem opcodeTable_eq_flatMap_rows : opcodeTable = classTable.flatMap ClassEntry.rows := rfl

/-- Every row lies within the entry of its class. -/
theorem rows_within_entry :
    classTable.all (fun e => e.rows.all fun r =>
      maskWithin r.mask r.pattern e.mask e.value) = true := by
  decide

/-- The rows of a class cover its entry. The bits are those by which the rows of a class differ. -/
theorem entry_covered_by_rows :
    classTable.all (fun e => maskCovered (e.rows.map fun r => (r.mask, r.pattern)) e.mask e.value
      [25, 24, 23, 22, 21, 20]) = true := by
  decide

/-- The seventeen entries cover every word (30_encoding.md R102). -/
theorem classTable_covers :
    maskCovered (classTable.map fun e => (e.mask, e.value)) 0#32 0#32
      [27, 26, 25, 24, 4] = true := by
  decide

/-- A word matches an entry of the classifier exactly when it matches a row of its class. -/
theorem entry_matches_iff {e : ClassEntry} (he : e ∈ classTable) (w : Word) :
    maskTest w e.mask e.value = true ↔ ∃ r ∈ e.rows, r.matchesWord w = true := by
  constructor
  · intro h
    obtain ⟨c, hc, hw⟩ :=
      exists_of_maskCovered _ h (List.all_eq_true.mp entry_covered_by_rows e he)
    obtain ⟨r, hr, rfl⟩ := List.mem_map.mp hc
    exact ⟨r, hr, hw⟩
  · rintro ⟨r, hr, hw⟩
    exact maskTest_of_maskWithin hw
      (List.all_eq_true.mp (List.all_eq_true.mp rows_within_entry e he) r hr)

/-- The class of the first matching row among the rows of some entries is that of the first matching
entry. -/
theorem cls_find?_rows {w : Word} (es : List ClassEntry) (hes : ∀ e ∈ es, e ∈ classTable) :
    ((es.flatMap ClassEntry.rows).find? (·.matchesWord w)).map Row.cls =
      (es.find? fun e => maskTest w e.mask e.value).map ClassEntry.cls := by
  induction es with
  | nil => rfl
  | cons e es ih =>
    obtain ⟨he, hes⟩ := List.forall_mem_cons.mp hes
    rw [List.flatMap_cons, List.find?_append]
    cases hw : maskTest w e.mask e.value with
    | false =>
      have hnone : e.rows.find? (·.matchesWord w) = none := by
        rw [List.find?_eq_none]
        intro r hr h
        rw [(entry_matches_iff he w).mpr ⟨r, hr, h⟩] at hw
        cases hw
      rw [hnone, Option.none_or, List.find?_cons_of_neg (by simp [hw]), ih hes]
    | true =>
      obtain ⟨r, hr⟩ := Option.isSome_iff_exists.mp
        (List.find?_isSome.mpr ((entry_matches_iff he w).mp hw))
      have hcls : r.cls = e.cls := by
        simpa using (List.mem_filter.mp (List.mem_of_find?_eq_some hr)).2
      rw [hr, Option.some_or, List.find?_cons_of_pos (by simp [hw])]
      simp [hcls]

theorem map_cls_rowOf (w : Word) : (rowOf w).map Row.cls = classify w := by
  rw [rowOf, opcodeTable_eq_flatMap_rows]
  exact cls_find?_rows classTable fun _ h => h

/-- Every word has a class, so the outcome ClassificationFailure is unreachable
(30_encoding.md R102). -/
theorem exists_classify (w : Word) : ∃ c, classify w = some c := by
  obtain ⟨c, hc, hw⟩ := exists_of_maskCovered _ (maskTest_zero w) classTable_covers
  obtain ⟨e, he, rfl⟩ := List.mem_map.mp hc
  obtain ⟨e', h⟩ := Option.isSome_iff_exists.mp
    (List.find?_isSome (p := fun e : ClassEntry => w &&& e.mask == e.value).mpr ⟨e, he, hw⟩)
  exact ⟨e'.cls, by rw [classify, h]; rfl⟩

theorem exists_rowOf (w : Word) : ∃ r, rowOf w = some r ∧ classify w = some r.cls := by
  obtain ⟨c, hc⟩ := exists_classify w
  obtain ⟨r, hr, rfl⟩ := Option.map_eq_some_iff.mp ((map_cls_rowOf w).trans hc)
  exact ⟨r, hr, hc⟩

/-- Settles O4: the table is the classifier's entries in order, each replaced by rows that cover it
exactly. -/
theorem rowsAgreeWithClassifier : Obligations.RowsAgreeWithClassifier := by
  intro w
  obtain ⟨r, hr, hc⟩ := exists_rowOf w
  exact ⟨r, List.mem_of_find?_eq_some hr, hr, hc⟩

end Sys2Proof
end

section
/-! The encoder and the decoder invert each other (30_encoding.md R81 to R100, R110). -/

namespace Sys2Proof

/-! Fields of a word. -/

/-- Two joined fields are a word when each is its part of the word. The type is not indexed, so that
`simp` finds a word of a literal width. -/
theorem append_eq_iff {n k : Nat} (x : BitVec n) (y : BitVec k) (w : BitVec (n + k)) :
    @Eq (no_index (BitVec (n + k))) (x ++ y) w ↔
      x = w.extractLsb' k n ∧ y = w.extractLsb' 0 k := by
  constructor
  · rintro rfl
    rw [field_upper _ _ (Nat.le_refl k), field_lower _ _ (by omega)]
    simp
  · rintro ⟨rfl, rfl⟩
    simp

/-- A field that a mask covers is that field of the value. -/
theorem field_of_maskTest {n : Nat} {w mask value : BitVec n}
    (h : maskTest w mask value = true) {lo len : Nat}
    (hm : mask.extractLsb' lo len = BitVec.allOnes len) :
    w.extractLsb' lo len = value.extractLsb' lo len := by
  have hv : w &&& mask = value := by simpa [maskTest] using h
  rw [← hv, BitVec.extractLsb'_and, hm, BitVec.and_allOnes]

theorem flag_getLsbD {n : Nat} (w : BitVec n) (i : Nat) :
    flag (w.getLsbD i) = w.extractLsb' i 1 := by
  ext j hj
  simp [show j = 0 by omega]

theorem field_field {n : Nat} (w : BitVec n) {lo len lo' len' : Nat} (h : lo' + len' ≤ len) :
    (w.extractLsb' lo len).extractLsb' lo' len' = w.extractLsb' (lo + lo') len' := by
  ext i hi
  simp [show lo' + i < len by omega, Nat.add_assoc]

theorem field_bit {n : Nat} (w : BitVec n) {lo len i : Nat} (h : i < len) :
    (w.extractLsb' lo len).getLsbD i = w.getLsbD (lo + i) := by
  simp [h]

/-! Operand 2 of a data-processing word (R82 to R84). -/

theorem operand2Of_eq {w : Word} {o : Operand2} (hi : w.getLsbD 25 = o.iBit)
    (hb : w.extractLsb' 0 12 = o.bits) : operand2Of w = o := by
  have bit (i : Nat) (h : i < 12) : w.getLsbD i = o.bits.getLsbD i := by
    rw [← hb, field_bit w h, Nat.zero_add]
  have field (lo len : Nat) (h : lo + len ≤ 12) :
      w.extractLsb' lo len = o.bits.extractLsb' lo len := by
    rw [← hb, field_field w h, Nat.zero_add]
  unfold operand2Of regAt
  rw [hi, bit 4 (by decide), field 8 4 (by decide), field 0 8 (by decide), field 0 4 (by decide),
    field 5 2 (by decide), field 7 5 (by decide)]
  cases o
  all_goals
    simp (disch := decide) only [Operand2.iBit, Operand2.bits, field_upper, field_lower,
      field_whole, bit_upper, bit_lower]
    simp

theorem operand2Of_iBit (w : Word) : (operand2Of w).iBit = w.getLsbD 25 := by
  unfold operand2Of
  cases w.getLsbD 25 <;> cases w.getLsbD 4 <;> rfl

/-- The word lies in the extension space, which no data-processing operand uses (R104). -/
def inExtensionSpace (w : Word) : Bool := maskTest w 0x0E000090#32 0x00000090#32

/-- Outside the extension space bit 7 is 0 beside bit 4, so operand 2 keeps all its twelve bits. -/
theorem operand2Of_bits {w : Word} (h26 : maskTest w 0x0C000000#32 0#32 = true)
    (hx : inExtensionSpace w = false) : (operand2Of w).bits = w.extractLsb' 0 12 := by
  have bit {i : Nat} {b : Bool} (h : w.getLsbD i = b) : w.extractLsb' i 1 = BitVec.ofBool b := by
    rw [← h, ← flag_getLsbD]
  unfold operand2Of regAt
  split
  · simp (disch := decide) only [Operand2.bits, append_eq_iff, field_field]
    trivial
  · next h25 =>
    rw [Bool.not_eq_true] at h25
    split
    · next h4 =>
      have h7 : w.getLsbD 7 = false := by
        refine Bool.eq_false_iff.mpr fun h7 => Bool.eq_false_iff.mp hx ?_
        have low := maskTest_or ((maskTest_twoPow w (i := 7) (by decide)).trans h7)
          ((maskTest_twoPow w (i := 4) (by decide)).trans h4)
        have high := maskTest_or h26 ((maskTest_twoPow_zero w (i := 25) (by decide)).trans
          (congrArg not h25))
        exact maskTest_or high low
      simp (disch := decide) only [Operand2.bits, append_eq_iff, field_field, Reg.bits_ofBits,
        ShiftType.bits_ofBits]
      simp [bit h4, bit h7]
    · next h4 =>
      rw [Bool.not_eq_true] at h4
      simp (disch := decide) only [Operand2.bits, append_eq_iff, field_field, Reg.bits_ofBits,
        ShiftType.bits_ofBits]
      simp [bit h4]

theorem dpArgs_encodeDp (opcode : BitVec 4) (a : DpArgs) : dpArgs (encodeDp opcode a) = a := by
  have h : operand2Of (encodeDp opcode a) = a.op2 :=
    operand2Of_eq
      (by simp (disch := decide) only [encodeDp, bit_upper, bit_lower, flag_bit])
      (by simp (disch := decide) only [encodeDp, field_lower, field_whole])
  rw [dpArgs, h]
  simp (disch := decide) only [encodeDp, condOf, regAt, field_upper, field_lower, field_whole,
    bit_upper, bit_lower, flag_bit, Cond.ofBits_bits, Reg.ofBits_bits]

theorem testArgs_encodeTest (opcode : BitVec 4) (a : TestArgs) :
    testArgs (encodeTest opcode a) = a := by
  have h : operand2Of (encodeTest opcode a) = a.op2 :=
    operand2Of_eq
      (by simp (disch := decide) only [encodeTest, bit_upper, bit_lower, flag_bit])
      (by simp (disch := decide) only [encodeTest, field_lower, field_whole])
  rw [testArgs, h]
  simp (disch := decide) only [encodeTest, condOf, regAt, field_upper, field_lower, field_whole,
    Cond.ofBits_bits, Reg.ofBits_bits]

theorem encodeDp_not_inExtensionSpace (opcode : BitVec 4) (a : DpArgs) :
    inExtensionSpace (encodeDp opcode a) = false := by
  obtain ⟨cond, s, rn, rd, op2⟩ := a
  cases op2
  all_goals
    simp only [inExtensionSpace, encodeDp, Operand2.iBit, Operand2.bits, maskTest_append]
    simp

theorem encodeTest_not_inExtensionSpace (opcode : BitVec 4) (a : TestArgs) :
    inExtensionSpace (encodeTest opcode a) = false := by
  obtain ⟨cond, rn, rd, op2⟩ := a
  cases op2
  all_goals
    simp only [inExtensionSpace, encodeTest, Operand2.iBit, Operand2.bits, maskTest_append]
    simp

/-! The row of an instruction. The constructors of Instr stand in the order of the rows, so the row
of `i` is the one at `i.ctorIdx`. -/

theorem row_index_lt {k : Nat} {r : Row} (h : opcodeTable[k]? = some r) : k < 55 :=
  (List.getElem?_eq_some_iff.mp h).1

theorem exists_row (i : Instr) : ∃ r, opcodeTable[i.ctorIdx]? = some r := by
  cases i <;> exact ⟨_, rfl⟩

/-- The row at `k` builds instructions of the constructor `k`. -/
theorem ctorIdx_build {k : Nat} {r : Row} (h : opcodeTable[k]? = some r) (w : Word) :
    (r.build w).ctorIdx = k := by
  have hk := row_index_lt h
  interval_cases k <;> cases h <;> rfl

/-- An instruction's word matches the instruction's row: its literal fields are the pattern. -/
theorem matches_encode {i : Instr} {r : Row} (h : opcodeTable[i.ctorIdx]? = some r) :
    r.matchesWord (encode i) = true := by
  cases i
  all_goals
    cases h
    simp only [Row.matchesWord_eq, encode, encodeMul, encodeMull, encodeSwap, encodeHdtReg,
      encodeHdtImm, encodeSdt, encodeBdt, encodeCdt, encodeCrt, encodeDp, encodeTest,
      maskTest_append]
    simp

/-- An instruction's row reads every field back from the instruction's word. -/
theorem build_encode {i : Instr} {r : Row} (h : opcodeTable[i.ctorIdx]? = some r) :
    r.build (encode i) = i := by
  cases i
  all_goals
    cases h
    simp (disch := decide) only [encode, dpArgs_encodeDp, testArgs_encodeTest,
      encodeMul, encodeMull, encodeSwap, encodeHdtReg, encodeHdtImm, encodeSdt, encodeBdt,
      encodeCdt, encodeCrt, mulArgs, mullArgs, swapArgs, bxArgs, hdtRegArgs, hdtRegOtherArgs,
      hdtImmArgs, hdtImmOtherArgs, undefArgs, sdtArgs, bdtArgs, branchArgs, cdtArgs, cdpArgs,
      crtArgs, swiArgs, mrsArgs, msrRegArgs, msrImmArgs, extArgs, badTestArgs,
      condOf, regAt, field_upper, field_lower, field_whole, bit_upper, bit_lower, flag_bit,
      Cond.ofBits_bits, Reg.ofBits_bits, TestOp.ofBits_bits]

/-- The instruction a matching row builds has the word it was built from: a field of the word is
either copied or fixed by the row's mask. The data-processing rows, from 39 on, also match words of
the extension space, which have no operand 2. -/
theorem encode_build {k : Nat} {r : Row} {w : Word} (hr : opcodeTable[k]? = some r)
    (hm : r.matchesWord w = true) (hx : 39 ≤ k → inExtensionSpace w = false) :
    encode (r.build w) = w := by
  have hk := row_index_lt hr
  have hop (h : maskTest w 0x0C000000#32 0#32 = true) (h39 : 39 ≤ k) := operand2Of_bits h (hx h39)
  rw [Row.matchesWord_eq] at hm
  interval_cases k
  all_goals
    cases hr
    replace hop (h) := hop (maskTest_of_maskWithin hm h)
    simp (disch := decide) only [encode, encodeMul, encodeMull, encodeSwap, encodeHdtReg,
      encodeHdtImm, encodeSdt, encodeBdt, encodeCdt, encodeCrt, encodeDp, encodeTest, mulArgs,
      mullArgs, swapArgs, bxArgs, hdtRegArgs, hdtRegOtherArgs, hdtImmArgs, hdtImmOtherArgs,
      undefArgs, sdtArgs, bdtArgs, branchArgs, cdtArgs, cdpArgs, crtArgs, swiArgs, mrsArgs,
      msrRegArgs, msrImmArgs, extArgs, badTestArgs, dpArgs, testArgs, condOf, regAt,
      append_eq_iff, field_field, flag_getLsbD, operand2Of_iBit, hop, Cond.bits_ofBits,
      Reg.bits_ofBits, TestOp.bits_ofBits]
    simp (disch := decide) [field_of_maskTest hm]

end Sys2Proof
end

section
/-! Which row takes the word of an instruction, and the round trips of decoder and encoder
(30_encoding.md R101 to R104, R110). -/

namespace Sys2Proof

/-! The first matching row. -/

/-- A row of higher priority than the row at `k` matches the word. -/
def takenBefore (k : Nat) (w : Word) : Bool := (opcodeTable.take k).any (·.matchesWord w)

theorem rowOf_eq_some_iff {w : Word} {r : Row} :
    rowOf w = some r ↔
      ∃ k, opcodeTable[k]? = some r ∧ r.matchesWord w = true ∧ takenBefore k w = false := by
  rw [rowOf, List.find?_eq_some_iff_getElem]
  constructor
  · rintro ⟨hm, k, hk, rfl, hbefore⟩
    refine ⟨k, List.getElem?_eq_getElem hk, hm, List.any_eq_false.mpr fun r' hr' => ?_⟩
    obtain ⟨j, hj, rfl⟩ := List.mem_take_iff_getElem.mp hr'
    simpa using hbefore j (by omega)
  · rintro ⟨k, hr, hm, hbefore⟩
    obtain ⟨hk, rfl⟩ := List.getElem?_eq_some_iff.mp hr
    refine ⟨hm, k, hk, rfl, fun j hj => ?_⟩
    have := List.any_eq_false.mp hbefore _ (List.mem_take_iff_getElem.mpr ⟨j, by omega, rfl⟩)
    simpa using this

/-- A word that no row before a data-processing row takes is outside the extension space, whose row
is at 37. -/
theorem not_inExtensionSpace_of_not_takenBefore {k : Nat} {w : Word} (hk : 39 ≤ k)
    (h : takenBefore k w = false) : inExtensionSpace w = false := by
  have := List.any_eq_false.mp h opcodeTable[37] (List.mem_take_iff_getElem.mpr
    ⟨37, lt_min (by omega) (by decide), rfl⟩)
  exact Bool.eq_false_iff.mpr this

theorem not_takenBefore_of_disjoint {k : Nat} {r : Row} {w : Word} (hm : r.matchesWord w = true)
    (hall : ((opcodeTable.take k).all fun r' =>
      maskDisjoint r.mask r.pattern r'.mask r'.pattern) = true) :
    takenBefore k w = false :=
  List.any_eq_false.mpr fun r' hr' =>
    Bool.eq_false_iff.mp (maskTest_of_maskDisjoint hm (List.all_eq_true.mp hall r' hr'))

/-- As `not_takenBefore_of_disjoint`, for a word outside the extension space: an earlier row may
also lie within that space. -/
theorem not_takenBefore_of_not_inExtensionSpace {k : Nat} {r : Row} {w : Word}
    (hm : r.matchesWord w = true) (hx : inExtensionSpace w = false)
    (hall : ((opcodeTable.take k).all fun r' =>
      maskDisjoint r.mask r.pattern r'.mask r'.pattern ||
        maskWithin r'.mask r'.pattern 0x0E000090#32 0x00000090#32) = true) :
    takenBefore k w = false := by
  refine List.any_eq_false.mpr fun r' hr' h => ?_
  rcases Bool.or_eq_true_iff.mp (List.all_eq_true.mp hall r' hr') with hd | hin
  · exact Bool.eq_false_iff.mp (maskTest_of_maskDisjoint hm hd) h
  · exact Bool.eq_false_iff.mp hx (maskTest_of_maskWithin h hin)

/-! The checks of WellFormed: each says that a row of higher priority takes the word
(R103, R104). -/

theorem Reg.bits_beq_ones (r : Reg) : (Reg.bits r == 15#4) = (r == 15) := by
  revert r; decide

/-- Bit 4 of the offset, as the Undefined class tests it (R93). -/
theorem maskTest_offset_bit4 (x : BitVec 12) : maskTest x 16#12 16#12 = x.getLsbD 4 :=
  maskTest_twoPow x (i := 4) (by decide)

/-- Bits 7 and 4 of operand 2, as the extension space tests them (R104). -/
theorem maskTest_operand2_extension (x : BitVec 12) :
    maskTest x 144#12 144#12 = (x.getLsbD 7 && x.getLsbD 4) := by
  rw [← maskTest_twoPow x (i := 7) (by decide), ← maskTest_twoPow x (i := 4) (by decide),
    Bool.eq_iff_iff, Bool.and_eq_true]
  exact ⟨fun h => ⟨maskTest_of_maskWithin h rfl, maskTest_of_maskWithin h rfl⟩,
    fun h => maskTest_or h.1 h.2⟩

/-- What MRS tests of bits 11:0 beside a test opcode (R87). -/
theorem maskTest_operand2_zero (x : BitVec 12) : maskTest x 4095#12 0#12 = (x == 0#12) := by
  rw [maskTest, show 4095#12 = BitVec.allOnes 12 from rfl, BitVec.and_allOnes]

/-- What BX tests of bits 11:4 beside an MSR word (R91). -/
theorem maskTest_sbz_bx (x : Byte) : maskTest x 255#8 241#8 = (x == 241#8) := by
  rw [maskTest, show 255#8 = BitVec.allOnes 8 from rfl, BitVec.and_allOnes]

/-- What the register-offset halfword rows test of bits 11:4 beside an MSR word (R95). -/
theorem maskTest_sbz_hdtReg (x : Byte) :
    (maskTest x 255#8 11#8 || maskTest x 249#8 9#8) =
      (x.getLsbD 3 && x.getLsbD 0 && x.extractLsb' 4 4 == 0#4) := by
  revert x; decide

/-- What the immediate-offset halfword rows test of bits 11:4 beside an MSR word (R95). -/
theorem maskTest_sbz_hdtImm (x : Byte) :
    (maskTest x 15#8 11#8 || maskTest x 9#8 9#8) = (x.getLsbD 3 && x.getLsbD 0) := by
  revert x; decide

/-- A row of higher priority takes the word of an instruction exactly when the instruction is
ill-formed (R103, R104). Most rows share no word with an earlier row, or, for data processing, only
words of the extension space. For the instructions with a check, the earlier rows' mask tests split
into tests of the fields, and their disjunction is the check. -/
theorem takenBefore_encode (i : Instr) : takenBefore i.ctorIdx (encode i) = !i.wf := by
  cases i
  case mul | mla | umull | umlal | smull | smlal | swp | swpb | bx | strhReg | ldrhReg | ldrsbReg
      | ldrshReg | strhImm | ldrhImm | ldrsbImm | ldrshImm | undef | stm | ldm | b | bl | stc | ldc
      | cdp | mcr | mrc | swi | mrs | msrImm =>
    exact not_takenBefore_of_disjoint (matches_encode rfl) rfl
  case and a | eor a | sub a | rsb a | add a | adc a | sbc a | rsc a | orr a | mov a | bic a
      | mvn a =>
    exact not_takenBefore_of_not_inExtensionSpace (matches_encode rfl)
      (encodeDp_not_inExtensionSpace _ a) rfl
  case tst a | teq a | cmp a | cmn a =>
    exact not_takenBefore_of_not_inExtensionSpace (matches_encode rfl)
      (encodeTest_not_inExtensionSpace _ a) rfl
  all_goals
    simp only [takenBefore, Instr.ctorIdx, opcodeTable, rowsMultiply, rowsSwapBx, rowsHalfword,
      rowsTransfer, rowsCoprocessor, rowsPsr, rowsMalformed, List.cons_append, List.nil_append,
      List.take_succ_cons, List.take_zero, List.any_cons, List.any_nil, Row.matchesWord_eq, encode,
      encodeSdt, maskTest_append]
    simp only [Nat.reduceAdd, BitVec.reduceExtractLsb', maskTest_zero, maskTest_flag_one,
      maskTest_flag_zero, maskTest_nibble, maskTest_ofNat, BitVec.reduceAnd, BitVec.reduceBEq,
      Reg.bits_beq_ones, Bool.true_and, Bool.and_true, Bool.false_and, Bool.and_false,
      Bool.false_or, Bool.or_false]
  case str a | ldr a | strb a | ldrb a =>
    simp [Instr.wf, SdtArgs.wf, maskTest_offset_bit4]
  case hdtRegOther a =>
    rw [Instr.wf, HdtRegOtherArgs.wf]
    grind
  case hdtImmOther a =>
    rw [Instr.wf, HdtImmOtherArgs.wf]
    grind
  case msrReg a =>
    rw [Instr.wf, MsrRegArgs.wf, ← maskTest_sbz_bx]
    grind [maskTest_sbz_hdtReg a.sbz, maskTest_sbz_hdtImm a.sbz]
  case extension a =>
    rw [Instr.wf, ExtArgs.wf, bne]
    generalize a.opcode = opcode, a.s = s, a.mid = mid, (a.hi == 0#4) = hi, (a.rd == 15) = rd
    revert opcode s mid hi rd
    decide
  case badTest a =>
    have within {mask value : BitVec 12} (hin : maskWithin mask value 144#12 144#12 = true)
        (h : maskTest a.operand2 mask value = true) : maskTest a.operand2 144#12 144#12 = true :=
      maskTest_of_maskWithin h hin
    have := within (mask := 4080#12) (value := 144#12) rfl
    have := within (mask := 4080#12) (value := 176#12) rfl
    have := within (mask := 3984#12) (value := 144#12) rfl
    have := within (mask := 240#12) (value := 176#12) rfl
    rw [Instr.wf, BadTestArgs.wf, ← maskTest_operand2_zero]
    cases a.op <;>
      simp only [TestOp.bits, maskTest_ofNat, BitVec.reduceAnd, BitVec.reduceBEq] <;>
      grind [maskTest_operand2_extension]

/-! The round trips. -/

theorem rowOf_encode {i : Instr} (hi : i.wf = true) {r : Row}
    (hr : opcodeTable[i.ctorIdx]? = some r) : rowOf (encode i) = some r :=
  rowOf_eq_some_iff.mpr
    ⟨i.ctorIdx, hr, matches_encode hr, by rw [takenBefore_encode, hi, Bool.not_true]⟩

/-- The instruction that the first matching row builds is well-formed and encodes to the word. -/
theorem wf_and_encode_of_rowOf {w : Word} {r : Row} (h : rowOf w = some r) :
    (r.build w).wf = true ∧ encode (r.build w) = w := by
  obtain ⟨k, hr, hm, hbefore⟩ := rowOf_eq_some_iff.mp h
  have henc : encode (r.build w) = w :=
    encode_build hr hm fun hk => not_inExtensionSpace_of_not_takenBefore hk hbefore
  have htaken := takenBefore_encode (r.build w)
  rw [ctorIdx_build hr, henc, hbefore] at htaken
  exact ⟨by simpa using htaken.symm, henc⟩

/-- Settles O2: the instruction's own row is the first that matches its word, and reads its fields
back. -/
theorem decodeInvertsEncode : Obligations.DecodeInvertsEncode := by
  intro i hi
  obtain ⟨r, hr⟩ := exists_row i
  rw [decodeWord_of_rowOf (rowOf_encode hi hr), build_encode hr]

/-- Settles O3: some row matches, and the instruction it builds re-encodes to the word. -/
theorem everyWordDecodes : Obligations.EveryWordDecodes := by
  intro w
  obtain ⟨r, hr, -⟩ := exists_rowOf w
  exact ⟨r.build w, decodeWord_of_rowOf hr, wf_and_encode_of_rowOf hr⟩

theorem decodeWord_of_encode {i : Instr} {w : Word} (hw : encode i = w) (hi : i.wf = true) :
    decodeWord w = .ok i :=
  hw ▸ decodeInvertsEncode i hi

/-- Settles O1: each word is the encoding of its instruction, which is well-formed. -/
theorem writtenWordsDecode : Obligations.WrittenWordsDecode := by
  unfold Obligations.WrittenWordsDecode
  repeat' apply And.intro
  all_goals exact decodeWord_of_encode rfl rfl

end Sys2Proof
end

section
/-! The faults of STRICT_UNPREDICTABLE (30_encoding.md R105, 42_data_processing.md R177). -/

namespace Sys2Proof.Machine

/-- A fault of the executor is the fault of the instruction, once its condition passes. -/
theorem execute_unpredictable {c : Cond} {body : State → Except NonOk State} {s : State}
    {reason : UnpredReason} (h : Passes c s)
    (hb : body { s with pcWritten := false } = .error (.unpredictable reason)) :
    execute c body s = .fault (.unpredictable reason) :=
  execute_error h hb

/-! The two data-processing checks (42_data_processing.md R177). -/

theorem strictChecksDp_sbz (rn rd : Reg) (o : Operand2) :
    strictChecksDp true true rn rd o = some (.unpredictable .shouldBeZero) := rfl

theorem strictChecksDp_shiftReg {rn rd rm : Reg} (ty : ShiftType) (rs : Reg)
    (h : rd = 15 ∨ rn = 15 ∨ rm = 15) :
    strictChecksDp true false rn rd (.shiftReg rm ty rs) =
      some (.unpredictable .pcInRegisterShift) := by
  simp [strictChecksDp, h]

theorem dpBody_of_strictChecksDp {op : AluOp} {sbz : Bool} {a : DpArgs} {s : State} {o : NonOk}
    (h : strictChecksDp s.cfg.strict sbz a.rn a.rd a.op2 = some o) :
    dpBody op sbz a s = .error o := by
  simp [dpBody, h]

theorem testBody_of_strictChecksDp {op : AluOp} {a : TestArgs} {s : State} {o : NonOk}
    (h : strictChecksDp s.cfg.strict (a.rd != 0) a.rn a.rd a.op2 = some o) :
    testBody op a s = .error o := by
  simp [testBody, h]

theorem exec_testOp {f : TestArgs → Instr} (hf : f ∈ testOps) (a : TestArgs) :
    ∃ op : AluOp, ∀ s, exec (f a) s = execute a.cond (testBody op a) s := by
  simp only [testOps, List.mem_cons, List.not_mem_nil, or_false] at hf
  rcases hf with rfl | rfl | rfl | rfl
  all_goals exact ⟨_, fun _ => rfl⟩

theorem exec_writingOp_of_strictChecksDp {e : WritingOp} (he : e ∈ writingOps) {a : DpArgs}
    {s : State} {reason : UnpredReason} (hp : Passes a.cond s)
    (h : strictChecksDp s.cfg.strict (!e.readsRn && a.rn != 0) a.rn a.rd a.op2 =
      some (.unpredictable reason)) :
    exec (e.instr a) s = .fault (.unpredictable reason) := by
  obtain ⟨op, hexec⟩ := exec_writingOp he
  rw [hexec]
  exact execute_unpredictable hp (dpBody_of_strictChecksDp h)

theorem exec_testOp_of_strictChecksDp {f : TestArgs → Instr} (hf : f ∈ testOps) {a : TestArgs}
    {s : State} {reason : UnpredReason} (hp : Passes a.cond s)
    (h : strictChecksDp s.cfg.strict (a.rd != 0) a.rn a.rd a.op2 = some (.unpredictable reason)) :
    exec (f a) s = .fault (.unpredictable reason) := by
  obtain ⟨op, hexec⟩ := exec_testOp hf a
  rw [hexec]
  exact execute_unpredictable hp (testBody_of_strictChecksDp h)

/-! MUL and MSR. -/

/-- MUL with a nonzero Rn field under strict (43_multiply.md R190). -/
theorem exec_mul_shouldBeZero {a : MulArgs} {s : State} (hs : s.cfg.strict = true)
    (hp : Passes a.cond s) (hrn : a.rn ≠ 0) :
    exec (.mul a) s = .fault (.unpredictable .shouldBeZero) :=
  execute_unpredictable hp (by simp [mulBody, mulChecks, hs, hrn])

/-- The register form of MSR with bits 11:4 nonzero under strict (44_psr_transfer.md R213). -/
theorem exec_msrReg_shouldBeZero {a : MsrRegArgs} {s : State} (hs : s.cfg.strict = true)
    (hp : Passes a.cond s) (hsbz : a.sbz ≠ 0#8) :
    exec (.msrReg a) s = .fault (.unpredictable .shouldBeZero) :=
  execute_unpredictable hp (by simp [msrRegBody, msrChecks, hs, hsbz])

/-- Settles O25: each strict check comes first in its executor. -/
theorem strictFaults : Obligations.StrictFaults := by
  intro s hs
  refine ⟨?_, ?_, ?_, ?_, fun a hp => exec_mul_shouldBeZero hs hp,
    fun a hp => exec_msrReg_shouldBeZero hs hp⟩
  · intro e he a hp hreads hrn
    refine exec_writingOp_of_strictChecksDp he hp ?_
    rw [hs, hreads, bne_iff_ne.mpr hrn]
    exact strictChecksDp_sbz ..
  · intro f hf a hp hrd
    refine exec_testOp_of_strictChecksDp hf hp ?_
    rw [hs, bne_iff_ne.mpr hrd]
    exact strictChecksDp_sbz ..
  · intro e he a rm rs ty hp hrn hop hpc
    have hsbz : (!e.readsRn && a.rn != 0) = false := by
      cases hr : e.readsRn
      · simp [hrn hr]
      · rfl
    refine exec_writingOp_of_strictChecksDp he hp ?_
    rw [hs, hsbz, hop]
    exact strictChecksDp_shiftReg ty rs hpc
  · intro f hf a rm rs ty hp hrd hop hpc
    refine exec_testOp_of_strictChecksDp hf hp ?_
    rw [hs, hop, show (a.rd != 0) = false from by simp [hrd]]
    exact strictChecksDp_shiftReg ty rs (.inr hpc)

end Sys2Proof.Machine
end

section
/-! The condition table, and the two ways an instruction does not execute (40_condition.md R120 to
R122). -/

namespace Sys2Proof.Machine

/-! The condition table (R120). -/

/-- What the flags satisfy when an instruction with this condition executes; the reserved condition
never executes. -/
def ConditionHolds (c : Cond) (p : Psr) : Prop :=
  match c with
  | .eq => p.z = true
  | .ne => p.z = false
  | .cs => p.c = true
  | .cc => p.c = false
  | .mi => p.n = true
  | .pl => p.n = false
  | .vs => p.v = true
  | .vc => p.v = false
  | .hi => p.c = true ∧ p.z = false
  | .ls => p.c = false ∨ p.z = true
  | .ge => p.n = p.v
  | .lt => p.n ≠ p.v
  | .gt => p.z = false ∧ p.n = p.v
  | .le => p.z = true ∨ p.n ≠ p.v
  | .al => True
  | .reserved => False

theorem conditionPassed_eq_some_true (c : Cond) (p : Psr) :
    conditionPassed c p = some true ↔ ConditionHolds c p := by
  cases c <;> simp [conditionPassed, ConditionHolds]

theorem ofBits_eq_reserved (b : BitVec 4) : Cond.ofBits b = .reserved ↔ b = 0b1111#4 := by
  constructor
  · intro h
    rw [← Cond.bits_ofBits b, h]
    rfl
  · rintro rfl
    rfl

/-! The two ways an instruction does not execute, for every class (46_dispatch.md R242). -/

/-- The trap of the reserved condition (R121). -/
theorem exec_reserved {i : Instr} {s : State} (h : i.cond = .reserved) :
    TrapsUndefined s (exec i s) .undefinedCondition := by
  obtain ⟨_, -, hexec⟩ := exec_eq_execute i
  rw [hexec, execute_reserved ((conditionPassed_eq_none _ _).mpr h)]
  exact settle_undefined s .undefinedCondition

/-- The skip of a failed condition (R122). -/
theorem exec_failed {i : Instr} {s : State} (h : conditionPassed i.cond s.cpsr = some false) :
    exec i s = .next s.skip := by
  obtain ⟨_, -, hexec⟩ := exec_eq_execute i
  rw [hexec, execute_failed h]

theorem State.skip_completes (s : State) : Completes s s.skip := by
  constructor <;> simp

/-- Settles O10: the table condition by condition, the code of the reserved condition, and its
trap. -/
theorem conditionDecidesExecution : Obligations.ConditionDecidesExecution := by
  refine ⟨fun p => ?_, fun i s h => exec_reserved h⟩
  have passes (c : Cond) := conditionPassed_eq_some_true c p
  exact ⟨passes .eq, passes .ne, passes .cs, passes .cc, passes .mi, passes .pl, passes .vs,
    passes .vc, passes .hi, passes .ls, passes .ge, passes .lt, passes .gt, passes .le, rfl,
    fun b => (conditionPassed_eq_none _ p).trans (ofBits_eq_reserved b)⟩

/-- Settles O11: the answer is `State.skip`, which moves the pc and nothing else. -/
theorem failedConditionSkips : Obligations.FailedConditionSkips := fun _ s h =>
  ⟨s.skip, exec_failed h, s.skip_completes, s.skip_pc, s.skip_cpsr, fun _ => rfl, fun _ => rfl⟩

end Sys2Proof.Machine
end

section
/-! The barrel shifter: each shift as one operation of the word, for every amount, and what the forms
of operand 2 and operand 1 read (41_shifter.md R130 to R137). -/

namespace Sys2Proof.Machine

/-! The immediate operand (R130). -/

theorem immOperand_getLsbD (rotate : BitVec 4) (imm8 : Byte) (c : Bool) {k : Nat} (hk : k < 32) :
    (immOperand rotate imm8 c).value.getLsbD k =
      imm8.getLsbD ((k + 2 * rotate.toNat) % 32) := by
  have hlt : (k + 2 * rotate.toNat) % 32 < 32 := Nat.mod_lt _ (by decide)
  simp [immOperand, ror_getLsbD _ _ _ hk, hlt]

/-- Settles O12: the bits of the rotation; the carry-out is the model's own equation. -/
theorem immediateOperandRotates : Obligations.ImmediateOperandRotates := fun rotate imm8 c =>
  ⟨fun _ hk => immOperand_getLsbD rotate imm8 c hk, rfl⟩

/-! Each shift by any amount (R132 to R136): the value is one operation of the word, since the library
shifts by 32 and more as the model's table says. -/

theorem lslC_eq (v : Word) (n : Nat) (c : Bool) :
    lslC v n c =
      ⟨v <<< n, if n = 0 then c else if n ≤ 32 then v.getLsbD (32 - n) else false⟩ := by
  unfold lslC
  split
  · next h => simp [h]
  · split
    · next h31 => simp [show n ≤ 32 by omega]
    · split
      · next h => simp [h]
      · next h31 h32 =>
        simp [show ¬ n ≤ 32 by omega, BitVec.shiftLeft_eq_zero (show 32 ≤ n by omega)]

theorem lsrC_eq (v : Word) (n : Nat) (c : Bool) :
    lsrC v n c =
      ⟨v >>> n, if n = 0 then c else if n ≤ 32 then v.getLsbD (n - 1) else false⟩ := by
  unfold lsrC
  split
  · next h => simp [h]
  · split
    · next h31 => simp [show n ≤ 32 by omega]
    · split
      · next h => simp [h, BitVec.ushiftRight_eq_zero (Nat.le_refl 32)]
      · next h31 h32 =>
        simp [show ¬ n ≤ 32 by omega, BitVec.ushiftRight_eq_zero (show 32 ≤ n by omega)]

/-- From 32 on an arithmetic shift leaves only copies of the sign bit. -/
theorem sshiftRight_of_le (v : Word) {n : Nat} (h : 32 ≤ n) :
    v.sshiftRight n = if v.getLsbD 31 then 0xFFFFFFFF#32 else 0#32 := by
  rw [← BitVec.msb_eq_getLsbD_last]
  cases hv : v.msb
  · rw [BitVec.sshiftRight_eq_of_msb_false hv, BitVec.ushiftRight_eq_zero h]
    rfl
  · rw [BitVec.sshiftRight_eq_of_msb_true hv, BitVec.ushiftRight_eq_zero h]
    rfl

theorem asrC_eq (v : Word) (n : Nat) (c : Bool) :
    asrC v n c =
      ⟨v.sshiftRight n,
        if n = 0 then c else if n ≤ 31 then v.getLsbD (n - 1) else v.getLsbD 31⟩ := by
  unfold asrC
  split
  · next h => simp [h]
  · split
    · rfl
    · next h31 => rw [sshiftRight_of_le v (show 32 ≤ n by omega)]

theorem ror_mod (v : Word) (n : Nat) : ror v (n % 32) = ror v n :=
  BitVec.rotateRight_mod_eq_rotateRight

theorem ror_zero (v : Word) : ror v 0 = v := by
  apply BitVec.eq_of_getLsbD_eq
  intro k hk
  rw [ror_getLsbD v 0 k hk, Nat.add_zero, Nat.mod_eq_of_lt hk]

theorem rorC_eq (v : Word) (n : Nat) (c : Bool) :
    rorC v n c = ⟨ror v n, if n = 0 then c else v.getLsbD ((n - 1) % 32)⟩ := by
  unfold rorC
  split
  · next h => simp [h, ror_zero]
  · split
    · next h0 hm =>
      rw [← ror_mod v n, hm, ror_zero, show (n - 1) % 32 = 31 by omega]
    · next h0 hm => rw [ror_mod, show (n - 1) % 32 = n % 32 - 1 by omega]

/-- RRX halves the word and puts C above it (R135). -/
theorem rrxC_value_toNat (v : Word) (c : Bool) :
    (rrxC v c).value.toNat = v.toNat / 2 + c.toNat * 2 ^ 31 := by
  have hhalf : v.toNat / 2 < 2 ^ 31 := by omega
  have hrest : (v.extractLsb' 1 31).toNat = v.toNat / 2 := by
    rw [BitVec.extractLsb'_toNat, Nat.shiftRight_eq_div_pow, Nat.mod_eq_of_lt hhalf]
  calc (rrxC v c).value.toNat
      = c.toNat <<< 31 ||| v.toNat / 2 := by
        simp only [rrxC, BitVec.toNat_append, hrest, BitVec.toNat_ofBool]
    _ = v.toNat / 2 + c.toNat * 2 ^ 31 := by
        rw [← Nat.shiftLeft_add_eq_or_of_lt hhalf, Nat.shiftLeft_eq, Nat.add_comm]

/-! The two forms of an amount (R132 to R135). -/

/-- Settles O13: both forms are `lslC`, whose value is the product modulo 2^32. -/
theorem leftShift : Obligations.LeftShift := by
  intro v c n r hr
  have hr : r = lslC v n c := by
    rcases hr with ⟨a, rfl, h⟩ | ⟨b, rfl, h⟩ <;> exact h
  rw [hr, lslC_eq]
  exact ⟨by rw [BitVec.toNat_shiftLeft, Nat.shiftLeft_eq], rfl⟩

/-- Settles O14: both forms are `lsrC`, whose value is the quotient. -/
theorem logicalRightShift : Obligations.LogicalRightShift := by
  intro v c n r hr
  have hr : r = lsrC v n c := by
    rcases hr with ⟨a, rfl, h⟩ | ⟨b, rfl, h⟩ <;> exact h
  rw [hr, lsrC_eq]
  exact ⟨by rw [BitVec.toNat_ushiftRight, Nat.shiftRight_eq_div_pow], rfl⟩

/-- Settles O15: both forms are `asrC`, whose value is the floor of the signed quotient. -/
theorem arithmeticRightShift : Obligations.ArithmeticRightShift := by
  intro v c n r hr
  have hr : r = asrC v n c := by
    rcases hr with ⟨a, rfl, h⟩ | ⟨b, rfl, h⟩ <;> exact h
  rw [hr, asrC_eq]
  exact ⟨by rw [BitVec.toInt_sshiftRight, Int.shiftRight_eq_div_pow]; norm_cast, rfl⟩

theorem shiftByImm_ror_of_ne {v : Word} {a : BitVec 5} {c : Bool} (h : a ≠ 0#5) :
    shiftByImm .ror v a c = rorC v a.toNat c :=
  if_neg h

/-- Settles O16: both forms are `rorC`, but for the immediate amount 0, which is `rrxC`. -/
theorem rotateRight : Obligations.RotateRight := by
  refine fun v c => ⟨fun n r hr => ?_, rrxC_value_toNat v c, rfl⟩
  have hr : r = rorC v n c := by
    rcases hr with ⟨a, ha, rfl, h⟩ | ⟨b, rfl, h⟩
    · exact h.trans (shiftByImm_ror_of_ne ha)
    · exact h
  rw [hr, rorC_eq]
  exact ⟨fun k hk => ror_getLsbD v n k hk, rfl⟩

/-! What the operands read, and the shift by r15 (R131, R137). -/

@[simp] theorem State.regInShift_fifteen (s : State) : s.regInShift 15 = s.pc + 12#32 := rfl

theorem State.regInShift_of_ne (s : State) {i : Reg} (h : i ≠ 15) : s.regInShift i = s.reg i :=
  if_neg h

theorem shifterOperand_shiftReg (s : State) (rm : Reg) (ty : ShiftType) {rs : Reg} (h : rs ≠ 15) :
    shifterOperand (.shiftReg rm ty rs) s =
      .ok (shiftByReg ty (s.regInShift rm) ((s.reg rs).extractLsb' 0 8) s.cpsr.c) :=
  if_neg h

theorem shifterOperand_shiftReg_fifteen (s : State) (rm : Reg) (ty : ShiftType) :
    shifterOperand (.shiftReg rm ty 15) s =
      .error (.undefinedInstruction .pcOperandDisallowed) :=
  rfl

/-- Settles O17: form by form; beside a register-specified shift r15 is `State.regInShift`. -/
theorem operandForms : Obligations.OperandForms := by
  refine fun s rn rm rs ty amount rotate imm8 => ⟨rfl, rfl, fun hrs hrm => ?_, fun hrs => ?_,
    shifterOperand_shiftReg_fifteen s rm ty, rfl, rfl, fun hrn => s.regInShift_of_ne hrn,
    s.regInShift_fifteen⟩
  · rw [shifterOperand_shiftReg s rm ty hrs, s.regInShift_of_ne hrm]
  · rw [shifterOperand_shiftReg s 15 ty hrs, s.regInShift_fifteen]

theorem dpBody_of_shifterOperand_error {op : AluOp} {sbz : Bool} {a : DpArgs} {s : State}
    {o : NonOk} (ha : OperandAllowed s a.rn a.rd a.op2) (hz : s.cfg.strict = true → sbz = false)
    (h : shifterOperand a.op2 s = .error o) : dpBody op sbz a s = .error o := by
  unfold dpBody
  rw [strictChecksDp_none ha hz, h]

theorem testBody_of_shifterOperand_error {op : AluOp} {a : TestArgs} {s : State} {o : NonOk}
    (ha : OperandAllowed s a.rn a.rd a.op2) (hz : s.cfg.strict = true → a.rd = 0)
    (h : shifterOperand a.op2 s = .error o) : testBody op a s = .error o := by
  unfold testBody
  rw [strictChecksDp_none ha fun hst => by simp [hz hst], h]

/-- Under strict the SBZ check of Rn passes where `RnAllowed` says so (30_encoding.md R105). -/
theorem RnAllowed.sbz_eq_false {s : State} {e : WritingOp} {rn : Reg} (h : RnAllowed s e rn)
    (hst : s.cfg.strict = true) : (!e.readsRn && rn != 0) = false := by
  cases hread : e.readsRn
  · simp [h hread hst]
  · rfl

/-- Settles O24: the strict checks pass, so the executor ends with the shifter's outcome. -/
theorem shiftAmountFromPcTraps : Obligations.ShiftAmountFromPcTraps := by
  constructor
  · intro e he a s rm ty hc hop ha hrn
    obtain ⟨op, hexec⟩ := exec_writingOp he
    have hsh : shifterOperand a.op2 s = _ := hop ▸ shifterOperand_shiftReg_fifteen s rm ty
    rw [hexec]
    exact execute_traps_undefined hc (dpBody_of_shifterOperand_error ha hrn.sbz_eq_false hsh)
  · intro f hf a s rm ty hc hop ha hrd
    obtain ⟨op, hexec⟩ := exec_testOp hf a
    have hsh : shifterOperand a.op2 s = _ := hop ▸ shifterOperand_shiftReg_fifteen s rm ty
    rw [hexec]
    exact execute_traps_undefined hc (testBody_of_shifterOperand_error ha hrd hsh)

end Sys2Proof.Machine
end

section
/-! `AddWithCarry` on integers: the sum and, against the complement, the difference
(42_data_processing.md R151, R155). -/

namespace Sys2Proof.Machine

/-- The 33 bits of `addWithCarry` hold the exact sum. -/
theorem exactSum_toNat (x y : Word) (cin : Bool) :
    (x.setWidth 33 + y.setWidth 33 + (BitVec.ofBool cin).setWidth 33).toNat =
      x.toNat + y.toNat + cin.toNat := by
  have hx := x.isLt
  have hy := y.isLt
  have hc := cin.toNat_le
  simp only [BitVec.toNat_add, BitVec.toNat_setWidth, BitVec.toNat_ofBool]
  omega

theorem addWithCarry_result_toNat (x y : Word) (cin : Bool) :
    (addWithCarry x y cin).result.toNat = (x.toNat + y.toNat + cin.toNat) % 2 ^ 32 := by
  simp only [addWithCarry, BitVec.toNat_setWidth, exactSum_toNat]

theorem addWithCarry_carry (x y : Word) (cin : Bool) :
    (addWithCarry x y cin).carry = decide (2 ^ 32 ≤ x.toNat + y.toNat + cin.toNat) := by
  simp only [addWithCarry]
  rw [← BitVec.msb_eq_getLsbD_last, BitVec.msb_eq_decide, exactSum_toNat]

/-- Equal operand signs and another sign of the result are the signed overflow of the exact sum. -/
theorem addWithCarry_overflow (x y : Word) (cin : Bool) :
    (addWithCarry x y cin).overflow =
      some (decide (x.toInt + y.toInt + cin.toNat < -2 ^ 31 ∨
        2 ^ 31 ≤ x.toInt + y.toInt + cin.toNat)) := by
  have hr := addWithCarry_result_toNat x y cin
  have hc := cin.toNat_le
  change some (x.msb == y.msb && (addWithCarry x y cin).result.msb != x.msb) = _
  rw [Option.some_inj, Bool.eq_iff_iff]
  simp only [BitVec.toInt_eq_toNat_cond, BitVec.msb_eq_decide, Bool.and_eq_true, beq_iff_eq,
    bne_iff_ne, decide_eq_decide, decide_eq_true_eq, ne_eq]
  omega

theorem addWithCarry_sumOf (x y : Word) (cin v : Bool) :
    SumOf x y cin (addWithCarry x y cin).result (addWithCarry x y cin).carry
      ((addWithCarry x y cin).overflow.getD v) where
  value := addWithCarry_result_toNat x y cin
  carry := addWithCarry_carry x y cin
  overflow := by rw [addWithCarry_overflow, Option.getD_some]

theorem toInt_not_word (y : Word) : (~~~y).toInt = -1 - y.toInt := by
  have hy := y.isLt
  simp only [BitVec.toInt_eq_toNat_cond, BitVec.toNat_not]
  omega

/-- A sum with the complement of a word is a difference, whose borrow is NOT the carry-in. -/
theorem SumOf.differenceOf {x y v : Word} {cin c o : Bool} (h : SumOf x (~~~y) cin v c o) :
    DifferenceOf x y (!cin) v c o := by
  obtain ⟨hv, rfl, rfl⟩ := h
  have hy := y.isLt
  rw [BitVec.toNat_not] at hv ⊢
  rw [toInt_not_word]
  have hb : (!cin).toNat + cin.toNat = 1 := by cases cin <;> rfl
  constructor
  · omega
  · rw [decide_eq_decide]
    omega
  · rw [decide_eq_decide]
    omega

theorem addWithCarry_differenceOf (x y : Word) (cin v : Bool) :
    DifferenceOf x y (!cin) (addWithCarry x (~~~y) cin).result (addWithCarry x (~~~y) cin).carry
      ((addWithCarry x (~~~y) cin).overflow.getD v) :=
  (addWithCarry_sumOf x (~~~y) cin v).differenceOf

/-- The result of `addWithCarry` as a sum of words. -/
theorem addWithCarry_result (x y : Word) (cin : Bool) :
    (addWithCarry x y cin).result = x + y + (BitVec.ofBool cin).setWidth 32 := by
  apply BitVec.eq_of_toNat_eq
  rw [addWithCarry_result_toNat]
  simp [BitVec.toNat_add]

/-- The result of `addWithCarry` against a complement as a difference of words. -/
theorem addWithCarry_not_result (x y : Word) (cin : Bool) :
    (addWithCarry x (~~~y) cin).result = x - y - borrowOf cin := by
  rw [addWithCarry_result, BitVec.not_eq_neg_add]
  cases cin
  · change x + (-y - 1#32) + 0#32 = x - y - 1#32
    bv_omega
  · change x + (-y - 1#32) + 1#32 = x - y - 0#32
    bv_omega

theorem addWithCarry_add (x y : Word) : (addWithCarry x y false).result = x + y := by
  simp [addWithCarry_result]

theorem addWithCarry_sub (x y : Word) : (addWithCarry x (~~~y) true).result = x - y := by
  simp [addWithCarry_not_result]

end Sys2Proof.Machine
end

section
/-! What a data-processing instruction that completes leaves, by the way its executor ends: a result
in Rd, the flags alone, or a return from an exception (42_data_processing.md R150 to R176). -/

namespace Sys2Proof.Machine

/-! The commit of an executor's writes. -/

theorem BodyFrame.completes_commit {s u : State} (h : BodyFrame { s with pcWritten := false } u) :
    Completes s u.commit where
  cfg := h.cfg
  mem := h.mem
  byte a := congrArg (·.readByte a) h.mem
  ir := h.ir
  phase := u.commit_phase
  pcWritten := u.commit_pcWritten
  irqReq := h.irqReq
  fiqReq := h.fiqReq
  run := h.run
  report := u.commit_report

/-- A write of r15 is no write of a physical register (10_state.md R28). -/
theorem WritesReg.keepsRegs {s t : State} {v : Word} (h : WritesReg s t 15 v) : KeepsRegs s t :=
  fun p => by simpa using h p

theorem State.setReg_withCpsr_self (s : State) (i : Reg) (v : Word) :
    ({ s.setReg i v with cpsr := s.cpsr } : State) = s.setReg i v := by
  unfold State.setReg
  split <;> rfl

/-! What the executors compute once their checks pass. -/

/-- What an ALU operation gives on operand 1 and the shifter's result
(42_data_processing.md R150). -/
def aluOut (op : AluOp) (rn : Reg) (o : Operand2) (sh : Shifted) (s : State) : AluOut :=
  op (operand1 rn o s) sh.value s.cpsr.c sh.carry

section
variable {op : AluOp} {sbz : Bool} {a : DpArgs} {s : State} {sh : Shifted}

/-- In a form that is no return the result goes to Rd and, with S, the flags are written. -/
theorem dpBody_writes (ha : OperandAllowed s a.rn a.rd a.op2)
    (hz : s.cfg.strict = true → sbz = false) (hsh : shifterOperand a.op2 s = .ok sh)
    (hr : ¬(a.s = true ∧ a.rd = 15)) :
    dpBody op sbz a s =
      .ok { s.setReg a.rd (aluOut op a.rn a.op2 sh s).result with
        cpsr := if a.s then dpFlags s.cpsr (aluOut op a.rn a.op2 sh s) else s.cpsr } := by
  unfold dpBody
  rw [strictChecksDp_none ha hz, hsh]
  cases hs : a.s
  · simp only [Bool.false_eq_true, if_false]
    exact congrArg Except.ok (s.setReg_withCpsr_self ..).symm
  · have hrd : a.rd ≠ 15 := fun h => hr ⟨hs, h⟩
    simp only [if_true, if_neg hrd]
    rfl

/-- With Rd = 15 and S the executor is the return (42_data_processing.md R152). -/
theorem dpBody_return (ha : OperandAllowed s a.rn a.rd a.op2)
    (hz : s.cfg.strict = true → sbz = false) (hsh : shifterOperand a.op2 s = .ok sh)
    (hd : a.rd = 15) (hs : a.s = true) :
    dpBody op sbz a s = returnFromException (aluOut op a.rn a.op2 sh s).result s := by
  unfold dpBody
  rw [strictChecksDp_none ha hz, hsh]
  simp only [if_pos hs, if_pos hd]
  rfl

/-- An instruction that writes Rd, in a form that is no return
(42_data_processing.md R150, R153). -/
theorem execute_dpBody_writesResult (hc : Passes a.cond s) (ha : OperandAllowed s a.rn a.rd a.op2)
    (hz : s.cfg.strict = true → sbz = false) (hsh : shifterOperand a.op2 s = .ok sh)
    (hr : ¬(a.s = true ∧ a.rd = 15)) :
    ∃ t, execute a.cond (dpBody op sbz a) s = .next t ∧
      WritesResult s t a.s a.rd (aluOut op a.rn a.op2 sh s).result
        (aluOut op a.rn a.op2 sh s).carry
        ((aluOut op a.rn a.op2 sh s).overflow.getD s.cpsr.v) := by
  have hbody := dpBody_writes (op := op) (s := { s with pcWritten := false }) ha hz hsh hr
  refine ⟨_, execute_ok hc hbody, (dpBody_frame hbody).completes_commit,
    State.setReg_nextPc { s with pcWritten := false } rfl a.rd _,
    State.setReg_read { s with pcWritten := false } a.rd _,
    fun m => by simp, fun h => ?_, fun h => ?_⟩
  · simp only [WritesFlags, State.commit_cpsr, if_pos h]
    exact dpFlags_eq ..
  · simp [h]

end

theorem testBody_writes {op : AluOp} {a : TestArgs} {s : State} {sh : Shifted}
    (ha : OperandAllowed s a.rn a.rd a.op2) (hz : s.cfg.strict = true → a.rd = 0)
    (hsh : shifterOperand a.op2 s = .ok sh) :
    testBody op a s =
      .ok { s with cpsr := dpFlags s.cpsr (aluOut op a.rn a.op2 sh s) } := by
  unfold testBody
  rw [strictChecksDp_none ha fun hst => by simp [hz hst], hsh]
  rfl

/-- A test instruction (42_data_processing.md R154). -/
theorem execute_testBody_writesFlagsOnly {op : AluOp} {a : TestArgs} {s : State} {sh : Shifted}
    (hc : Passes a.cond s) (ha : OperandAllowed s a.rn a.rd a.op2)
    (hz : s.cfg.strict = true → a.rd = 0) (hsh : shifterOperand a.op2 s = .ok sh) :
    ∃ t, execute a.cond (testBody op a) s = .next t ∧
      WritesFlagsOnly s t ((aluOut op a.rn a.op2 sh s).result.getLsbD 31)
        (decide ((aluOut op a.rn a.op2 sh s).result = 0#32)) (aluOut op a.rn a.op2 sh s).carry
        ((aluOut op a.rn a.op2 sh s).overflow.getD s.cpsr.v) := by
  have hbody := testBody_writes (op := op) (s := { s with pcWritten := false }) ha hz hsh
  exact ⟨_, execute_ok hc hbody, (testBody_frame hbody).completes_commit,
    State.nextPc_of_not_written (s := { s with pcWritten := false, cpsr := _ }) rfl,
    fun _ => rfl, fun _ => rfl, dpFlags_eq ..⟩

/-! Results. -/

/-- Settles O19: each is the executor of a logical operation, whose carry is the shifter's and which
has no overflow. -/
theorem logicalResults : Obligations.LogicalResults := by
  intro a s sh hc ha hr hsh
  have reads (op : AluOp) :=
    execute_dpBody_writesResult (op := op) (sbz := false) hc ha (fun _ => rfl) hsh hr
  refine ⟨reads opAnd, reads opEor, reads opOrr, reads opBic, fun hrn => ?_⟩
  have ignores (op : AluOp) := execute_dpBody_writesResult (op := op) (sbz := a.rn != 0) hc ha
    (fun hst => by simp [hrn hst]) hsh hr
  exact ⟨ignores opMov, ignores opMvn⟩

/-- Settles O20: each is `addWithCarry`, of the operands or of one and the complement of the
other. -/
theorem arithmeticResults : Obligations.ArithmeticResults := by
  intro a s sh hc ha hr hsh
  have writes (op : AluOp) :=
    execute_dpBody_writesResult (op := op) (sbz := false) hc ha (fun _ => rfl) hsh hr
  have sum {op : AluOp} {x y : Word} {cin : Bool}
      (h : aluOut op a.rn a.op2 sh s = addWithCarry x y cin) :
      ∃ t v c o, execute a.cond (dpBody op false a) s = .next t ∧
        WritesResult s t a.s a.rd v c o ∧ SumOf x y cin v c o := by
    obtain ⟨t, ht, hw⟩ := writes op
    exact ⟨t, _, _, _, ht, hw, h ▸ addWithCarry_sumOf x y cin _⟩
  have difference {op : AluOp} {x y : Word} (cin : Bool)
      (h : aluOut op a.rn a.op2 sh s = addWithCarry x (~~~y) cin) :
      ∃ t v c o, execute a.cond (dpBody op false a) s = .next t ∧
        WritesResult s t a.s a.rd v c o ∧ DifferenceOf x y (!cin) v c o := by
    obtain ⟨t, v, c, o, ht, hw, hv⟩ := sum h
    exact ⟨t, v, c, o, ht, hw, hv.differenceOf⟩
  exact ⟨sum (op := opAdd) rfl, sum (op := opAdc) rfl, difference (op := opSub) true rfl,
    difference (op := opSbc) s.cpsr.c rfl, difference (op := opRsb) true rfl,
    difference (op := opRsc) s.cpsr.c rfl⟩

/-- Settles O21: the flags of the operation of each, on the same operands. -/
theorem testResults : Obligations.TestResults := by
  intro a s sh hc ha hz hsh
  have writes (op : AluOp) := execute_testBody_writesFlagsOnly (op := op) hc ha hz hsh
  obtain ⟨tCmp, hCmp, hSub⟩ := writes opSub
  obtain ⟨tCmn, hCmn, hAdd⟩ := writes opAdd
  exact ⟨writes opAnd, writes opEor,
    ⟨tCmp, _, _, _, hCmp, hSub, addWithCarry_differenceOf _ _ true _⟩,
    ⟨tCmn, _, _, _, hCmn, hAdd, addWithCarry_sumOf _ _ false _⟩⟩

/-! Rd = 15: the jump and the return (42_data_processing.md R152, R153). -/

/-- Each instruction that writes Rd runs the executor of an ALU operation with its result. -/
theorem exec_writingOp_result {e : WritingOp} (he : e ∈ writingOps) :
    ∃ op : AluOp,
      (∀ (a : DpArgs) (s : State),
        exec (e.instr a) s = execute a.cond (dpBody op (!e.readsRn && a.rn != 0) a) s) ∧
      ∀ x y c sc, (op x y c sc).result = e.result x y c := by
  simp only [writingOps, List.mem_cons, List.not_mem_nil, or_false] at he
  rcases he with rfl | rfl | rfl | rfl | rfl | rfl | rfl | rfl | rfl | rfl | rfl | rfl
  · exact ⟨opAnd, fun _ _ => rfl, fun _ _ _ _ => rfl⟩
  · exact ⟨opEor, fun _ _ => rfl, fun _ _ _ _ => rfl⟩
  · exact ⟨opSub, fun _ _ => rfl, fun x y _ _ => addWithCarry_sub x y⟩
  · exact ⟨opRsb, fun _ _ => rfl, fun x y _ _ => addWithCarry_sub y x⟩
  · exact ⟨opAdd, fun _ _ => rfl, fun x y _ _ => addWithCarry_add x y⟩
  · exact ⟨opAdc, fun _ _ => rfl, fun x y c _ => addWithCarry_result x y c⟩
  · exact ⟨opSbc, fun _ _ => rfl, fun x y c _ => addWithCarry_not_result x y c⟩
  · exact ⟨opRsc, fun _ _ => rfl, fun x y c _ => addWithCarry_not_result y x c⟩
  · exact ⟨opOrr, fun _ _ => rfl, fun _ _ _ _ => rfl⟩
  · exact ⟨opMov, fun _ _ => rfl, fun _ _ _ _ => rfl⟩
  · exact ⟨opBic, fun _ _ => rfl, fun _ _ _ _ => rfl⟩
  · exact ⟨opMvn, fun _ _ => rfl, fun _ _ _ _ => rfl⟩

/-- Settles O22: with Rd = 15 the result that is written is the next pc, and no register. -/
theorem pcResultJumps : Obligations.PcResultJumps := by
  intro e he a s sh hc ha hrn hsh hd hs
  obtain ⟨op, hexec, hop⟩ := exec_writingOp_result he
  obtain ⟨t, ht, hw⟩ := execute_dpBody_writesResult (op := op) hc ha hrn.sbz_eq_false hsh
    (fun h => by simp [hs] at h)
  have hpc := hw.pc
  rw [if_pos hd, aluOut, hop] at hpc
  exact ⟨t, (hexec a s).trans ht, hw.completes, hpc, hw.noFlags hs, (hd ▸ hw.regs).keepsRegs,
    hw.spsrs⟩

theorem returnFromException_of_valid {s : State} {m : ExcMode} {p : Psr}
    (hm : s.cpsr.mode = m.mode) (hp : Psr.ofWord? (s.spsrs.read m) = some p) (v : Word) :
    returnFromException v s = .ok { s.setReg 15 v with cpsr := p } := by
  simp [returnFromException, State.spsr?_eq_some hm, hp]

theorem returnFromException_of_invalid {s : State} {m : ExcMode} (hm : s.cpsr.mode = m.mode)
    (hw : Mode.ofBits ((s.spsrs.read m).extractLsb' 0 5) = none) (v : Word) :
    returnFromException v s = .error (.unpredictable .invalidMode) := by
  simp [returnFromException, State.spsr?_eq_some hm, (Psr.ofWord?_eq_none _).mpr hw]

/-- A return that completes: the pc takes the result, the CPSR the SPSR, and nothing else
changes. -/
theorem execute_return {c : Cond} {body : State → Except NonOk State} {s : State} {m : ExcMode}
    {v : Word} (hc : Passes c s) (hm : s.cpsr.mode = m.mode)
    (hw : Mode.ofBits ((s.spsrs.read m).extractLsb' 0 5) ≠ none)
    (hbody : body { s with pcWritten := false } =
      returnFromException v { s with pcWritten := false }) :
    ∃ t, execute c body s = .next t ∧ Completes s t ∧ t.pc = v ∧
      t.cpsr.toWord = s.spsrs.read m ∧ KeepsRegs s t ∧ KeepsSpsrs s t := by
  obtain ⟨p, hp⟩ := Option.ne_none_iff_exists'.mp fun h => hw ((Psr.ofWord?_eq_none _).mp h)
  have hret := returnFromException_of_valid (s := { s with pcWritten := false }) hm hp v
  exact ⟨_, execute_ok hc (hbody.trans hret), (returnFromException_frame hret).completes_commit,
    by simp [State.nextPc], Psr.toWord_of_ofWord? hp, fun _ => by simp, fun _ => by simp⟩

/-- The T bit selects Thumb state, which the next step refuses (46_dispatch.md R240). -/
theorem step_thumb {s : State} (hr : s.run = .running) (hi : boundaryInterrupt s = none)
    (ht : s.cpsr.t = true) : step s = .refused .thumbState := by
  simp [step, hr, hi, ht, settle]

/-- A misaligned pc in ARM state is a fault of the next step (46_dispatch.md R241). -/
theorem step_misaligned {s : State} (hr : s.run = .running) (hi : boundaryInterrupt s = none)
    (ht : s.cpsr.t = false) (hpc : s.pc.toNat % 4 ≠ 0) :
    step s = .fault (.unpredictable .misalignedPC) := by
  have ha : pcAligned s.pc = false := by
    rwa [← Bool.not_eq_true, pcAligned_iff]
  simp [step, hr, hi, ht, ha, settle]

/-- Settles O23: the executor is the return, which goes by the SPSR of the mode. -/
theorem returnRestoresCpsr : Obligations.ReturnRestoresCpsr := by
  intro e he a s sh hc ha hrn hsh hd hs
  obtain ⟨op, hexec, hop⟩ := exec_writingOp_result he
  have hbody := dpBody_return (op := op) (s := { s with pcWritten := false }) ha
    hrn.sbz_eq_false hsh hd hs
  rw [aluOut, hop] at hbody
  rw [hexec]
  refine ⟨fun m hm hw => ?_, fun m hm hw => ?_, fun hm => ?_⟩
  · obtain ⟨t, ht, hcomp, hpc, hcpsr, hregs, hspsrs⟩ := execute_return hc hm hw hbody
    exact ⟨t, ht, hcomp, hpc, hcpsr, hregs, hspsrs, fun hr hi => ⟨step_thumb hr hi,
      step_misaligned hr hi⟩⟩
  · exact execute_unpredictable hc (hbody.trans
      (returnFromException_of_invalid (s := { s with pcWritten := false }) hm hw _))
  · exact execute_traps_undefined hc (hbody.trans
      (returnFromException_without_spsr (State.spsr?_eq_none hm) _))

/-! The extension space (42_data_processing.md R176). -/

/-- Settles O39: the executor of the extension space raises nothing but its fault. -/
theorem extensionSpaceFaults : Obligations.ExtensionSpaceFaults := by
  intro a s hc
  exact execute_unpredictable (body := fun _ => .error _) hc rfl

end Sys2Proof.Machine
end

section
/-! The multiplies: their register restrictions in order, what one that completes leaves, and the
products on integers (43_multiply.md R190 to R198). -/

namespace Sys2Proof.Machine

/-! The register restrictions (R190). -/

section
variable {strict acc : Bool} {a : MulArgs}

/-- The SBZ check of Rn passes: it is MUL's alone, and only under strict (30_encoding.md R105). -/
theorem mulSbz_passes (hz : strict = true → acc = false → a.rn = 0) :
    ¬(strict && !acc && a.rn != 0) = true := by
  simpa using hz

theorem mulChecks_fifteen (hz : strict = true → acc = false → a.rn = 0)
    (h : a.rd = 15 ∨ a.rm = 15 ∨ a.rs = 15 ∨ (acc = true ∧ a.rn = 15)) :
    mulChecks strict acc a = some (.undefinedInstruction .pcOperandDisallowed) := by
  rw [mulChecks, if_neg (mulSbz_passes hz), if_pos h]

theorem mulChecks_conflict (hz : strict = true → acc = false → a.rn = 0)
    (hpc : ¬(a.rd = 15 ∨ a.rm = 15 ∨ a.rs = 15 ∨ (acc = true ∧ a.rn = 15))) (h : a.rd = a.rm) :
    mulChecks strict acc a = some (.undefinedInstruction .multiplyRegisterConflict) := by
  rw [mulChecks, if_neg (mulSbz_passes hz), if_neg hpc, if_pos h]

end

theorem mulChecks_allowed {s : State} {acc : Bool} {a : MulArgs} (h : MultiplyAllowed s acc a) :
    mulChecks s.cfg.strict acc a = none := by
  obtain ⟨hrd, hrm, hrs, hrn, hne, hz⟩ := h
  have hpc : ¬(a.rd = 15 ∨ a.rm = 15 ∨ a.rs = 15 ∨ (acc = true ∧ a.rn = 15)) := by
    simpa [hrd, hrm, hrs] using hrn
  rw [mulChecks, if_neg (mulSbz_passes hz), if_neg hpc, if_neg hne]

theorem mullChecks_fifteen {a : MullArgs}
    (h : a.rdHi = 15 ∨ a.rdLo = 15 ∨ a.rm = 15 ∨ a.rs = 15) :
    mullChecks a = some (.undefinedInstruction .pcOperandDisallowed) :=
  if_pos h

theorem mullChecks_conflict {a : MullArgs}
    (hpc : ¬(a.rdHi = 15 ∨ a.rdLo = 15 ∨ a.rm = 15 ∨ a.rs = 15))
    (h : a.rdHi = a.rdLo ∨ a.rm = a.rdHi ∨ a.rm = a.rdLo) :
    mullChecks a = some (.undefinedInstruction .multiplyRegisterConflict) := by
  rw [mullChecks, if_neg hpc, if_pos h]

theorem mullChecks_allowed {a : MullArgs} (h : MultiplyLongAllowed a) : mullChecks a = none := by
  obtain ⟨hhi, hlo, hrm, hrs, hne, hmhi, hmlo⟩ := h
  simp [mullChecks, *]

theorem execute_mulBody_traps {acc : Bool} {op : Word → Word → Word → Word} {a : MulArgs}
    {s : State} {r : UndefReason} (hc : Passes a.cond s)
    (h : mulChecks s.cfg.strict acc a = some (.undefinedInstruction r)) :
    TrapsUndefined s (execute a.cond (mulBody acc op a) s) r :=
  execute_traps_undefined hc (by simp [mulBody, h])

theorem execute_mullBody_traps {op : Word → Word → BitVec 64 → BitVec 64} {a : MullArgs}
    {s : State} {r : UndefReason} (hc : Passes a.cond s)
    (h : mullChecks a = some (.undefinedInstruction r)) :
    TrapsUndefined s (execute a.cond (mullBody op a) s) r :=
  execute_traps_undefined hc (by simp [mullBody, h])

/-- Each long multiply runs the executor of an operation on 64 bits. -/
theorem exec_mullOp {f : MullArgs → Instr} (hf : f ∈ [Instr.umull, .umlal, .smull, .smlal]) :
    ∃ op, ∀ (a : MullArgs) (s : State), exec (f a) s = execute a.cond (mullBody op a) s := by
  simp only [List.mem_cons, List.not_mem_nil, or_false] at hf
  rcases hf with rfl | rfl | rfl | rfl
  all_goals exact ⟨_, fun _ _ => rfl⟩

/-- Settles O28: the checks of each executor in their order; MLA has no SBZ check to pass. -/
theorem multiplyRestrictionsTrap : Obligations.MultiplyRestrictionsTrap := by
  refine ⟨fun a s hc => ⟨fun hz => ⟨fun h => ?_, fun hpc h => ?_⟩, fun h => ?_, fun hpc h => ?_⟩,
    fun f hf a s hc => ?_⟩
  · exact execute_mulBody_traps hc (mulChecks_fifteen (fun hst _ => hz hst) (by simpa using h))
  · exact execute_mulBody_traps hc
      (mulChecks_conflict (fun hst _ => hz hst) (by simpa using hpc) h)
  · exact execute_mulBody_traps hc (mulChecks_fifteen nofun (by simpa using h))
  · exact execute_mulBody_traps hc (mulChecks_conflict nofun (by simpa using hpc) h)
  · obtain ⟨op, hexec⟩ := exec_mullOp hf
    rw [hexec]
    exact ⟨fun h => execute_mullBody_traps hc (mullChecks_fifteen h),
      fun hpc h => execute_mullBody_traps hc (mullChecks_conflict hpc h)⟩

/-! What a multiply that completes leaves (R191 to R198). -/

/-- With S a multiply writes N and Z of its result and leaves C and V (R197). -/
theorem mulFlags_writesFlags {w : Nat} {s t : State} (r : BitVec w)
    (h : t.cpsr = mulFlags s.cpsr r) :
    WritesFlags s t (r.getLsbD (w - 1)) (decide (r = 0#w)) s.cpsr.c s.cpsr.v :=
  h.trans (mulFlags_eq s.cpsr r)

/-- A CPSR write under a condition, as a write of the CPSR. -/
theorem State.ite_withCpsr (b : Bool) (s : State) (p : Psr) :
    (if b then { s with cpsr := p } else s) = { s with cpsr := if b then p else s.cpsr } := by
  cases b <;> rfl

theorem mulBody_writes {acc : Bool} {op : Word → Word → Word → Word} {a : MulArgs} {s : State}
    {v : Word} (ha : MultiplyAllowed s acc a)
    (hv : op (s.reg a.rm) (s.reg a.rs) (s.reg a.rn) = v) :
    mulBody acc op a s =
      .ok { s.setReg a.rd v with cpsr := if a.s then mulFlags s.cpsr v else s.cpsr } := by
  unfold mulBody
  rw [mulChecks_allowed ha, hv]
  simp only [State.ite_withCpsr, State.setReg_cpsr]

/-- A short multiply whose register fields are allowed: Rd takes the result (R191, R192, R197,
R198). -/
theorem execute_mulBody_writesResult {acc : Bool} {a : MulArgs} {s : State}
    (op : Word → Word → Word → Word) (hc : Passes a.cond s) (ha : MultiplyAllowed s acc a) :
    ∃ t, execute a.cond (mulBody acc op a) s = .next t ∧
      WritesResult s t a.s a.rd (op (s.reg a.rm) (s.reg a.rs) (s.reg a.rn)) s.cpsr.c s.cpsr.v := by
  have hbody := mulBody_writes (op := op) (s := { s with pcWritten := false }) ha rfl
  refine ⟨_, execute_ok hc hbody, (mulBody_frame hbody).completes_commit,
    State.setReg_nextPc { s with pcWritten := false } rfl a.rd _,
    State.setReg_read { s with pcWritten := false } a.rd _,
    fun m => by simp, fun hs => mulFlags_writesFlags _ (if_pos hs), fun hs => ?_⟩
  simp [hs]

/-- What writes of two visible registers do to each physical register: the banking map gives them
two different ones. -/
theorem State.setReg_setReg_read (s : State) {i j : Reg} (v w : Word) (h : i ≠ j) (q : PhysReg) :
    ((s.setReg i v).setReg j w).regs.read q =
      if phys s.cfg.fiqBanks s.cpsr.mode i = some q then v
      else if phys s.cfg.fiqBanks s.cpsr.mode j = some q then w
      else s.regs.read q := by
  simp only [State.setReg_read, State.setReg_cfg, State.setReg_cpsr]
  by_cases hi : phys s.cfg.fiqBanks s.cpsr.mode i = some q
  · rw [if_pos hi, if_pos hi, if_neg fun hj => h (phys_injective _ _ hi hj)]
  · rw [if_neg hi, if_neg hi]

theorem mullBody_writes {a : MullArgs} {s : State} {p : BitVec 64}
    {op : Word → Word → BitVec 64 → BitVec 64} (ha : MultiplyLongAllowed a)
    (hp : op (s.reg a.rm) (s.reg a.rs) (s.reg a.rdHi ++ s.reg a.rdLo) = p) :
    mullBody op a s =
      .ok { (s.setReg a.rdLo (p.extractLsb' 0 32)).setReg a.rdHi (p.extractLsb' 32 32) with
        cpsr := if a.s then mulFlags s.cpsr p else s.cpsr } := by
  unfold mullBody
  rw [mullChecks_allowed ha, hp]
  simp only [State.ite_withCpsr, State.setReg_cpsr]

/-- A long multiply whose register fields are allowed: RdHi:RdLo takes the result (R193 to R198). -/
theorem execute_mullBody_writesLong {a : MullArgs} {s : State}
    (op : Word → Word → BitVec 64 → BitVec 64) (hc : Passes a.cond s)
    (ha : MultiplyLongAllowed a) :
    ∃ t, execute a.cond (mullBody op a) s = .next t ∧
      WritesLong s t a (op (s.reg a.rm) (s.reg a.rs) (s.reg a.rdHi ++ s.reg a.rdLo)) := by
  have hbody := mullBody_writes (op := op) (s := { s with pcWritten := false }) ha rfl
  obtain ⟨hhi, hlo, -, -, hne, -, -⟩ := ha
  refine ⟨_, execute_ok hc hbody, (mullBody_frame hbody).completes_commit,
    by simp [State.nextPc, State.setReg_pcWritten_of_ne, hhi, hlo],
    State.setReg_setReg_read { s with pcWritten := false } _ _ hne.symm,
    fun m => by simp, fun hs => mulFlags_writesFlags _ (if_pos hs), fun hs => ?_⟩
  simp [hs]

/-! The products and sums on integers (R191 to R196). -/

theorem opMul_toNat (rm rs rn : Word) : (opMul rm rs rn).toNat = rm.toNat * rs.toNat % 2 ^ 32 :=
  BitVec.toNat_mul rm rs

theorem opMla_toNat (rm rs rn : Word) :
    (opMla rm rs rn).toNat = (rm.toNat * rs.toNat + rn.toNat) % 2 ^ 32 := by
  rw [opMla, BitVec.toNat_add, BitVec.toNat_mul, Nat.mod_add_mod]

/-- RdHi:RdLo as a number. -/
theorem toNat_wordPair (hi lo : Word) : (hi ++ lo).toNat = hi.toNat * 2 ^ 32 + lo.toNat := by
  rw [BitVec.toNat_append, ← Nat.shiftLeft_add_eq_or_of_lt lo.isLt, Nat.shiftLeft_eq]

/-- The product of two words fits in 64 bits. -/
theorem opUmull_toNat (rm rs : Word) (acc : BitVec 64) :
    (opUmull rm rs acc).toNat = rm.toNat * rs.toNat := by
  have hlt : rm.toNat * rs.toNat < 2 ^ 32 * 2 ^ 32 := Nat.mul_lt_mul'' rm.isLt rs.isLt
  simp only [opUmull, BitVec.toNat_mul, BitVec.toNat_setWidth_of_le (show 32 ≤ 64 by decide)]
  exact Nat.mod_eq_of_lt hlt

theorem opUmlal_toNat (rm rs : Word) (acc : BitVec 64) :
    (opUmlal rm rs acc).toNat = (rm.toNat * rs.toNat + acc.toNat) % 2 ^ 64 := by
  change (opUmull rm rs acc + acc).toNat = _
  rw [BitVec.toNat_add, opUmull_toNat]

/-- The signed product of two words fits in 64 bits. -/
theorem opSmull_toInt (rm rs : Word) (acc : BitVec 64) :
    (opSmull rm rs acc).toInt = rm.toInt * rs.toInt := by
  have hge : -2 ^ 62 ≤ rm.toInt * rs.toInt := BitVec.le_toInt_mul_toInt
  have hle : rm.toInt * rs.toInt ≤ 2 ^ 62 := BitVec.toInt_mul_toInt_le
  simp only [opSmull, BitVec.toInt_mul, BitVec.toInt_signExtend_of_le (show 32 ≤ 64 by decide)]
  exact Int.bmod_eq_of_le (by omega) (by omega)

/-- Modulo 2^64 the signed product is the word that holds it. -/
theorem opSmlal_toNat (rm rs : Word) (acc : BitVec 64) :
    ((opSmlal rm rs acc).toNat : Int) = (rm.toInt * rs.toInt + acc.toNat) % 2 ^ 64 := by
  have hp := opSmull_toInt rm rs acc
  rw [BitVec.toInt_eq_toNat_bmod] at hp
  change ((opSmull rm rs acc + acc).toNat : Int) = _
  rw [BitVec.toNat_add, ← hp]
  have := Int.bmod_emod (x := (opSmull rm rs acc).toNat) (m := 2 ^ 64)
  omega

/-! Results. -/

/-- Settles O26: the checks pass, and the result written is the product. -/
theorem multiplyResults : Obligations.MultiplyResults := by
  intro a s hc
  refine ⟨fun ha => ?_, fun ha => ?_⟩
  · obtain ⟨t, ht, hw⟩ := execute_mulBody_writesResult opMul hc ha
    exact ⟨t, _, ht, opMul_toNat .., hw⟩
  · obtain ⟨t, ht, hw⟩ := execute_mulBody_writesResult opMla hc ha
    exact ⟨t, _, ht, opMla_toNat .., hw⟩

/-- Settles O27: the checks pass, and the 64 bits written are the exact product, or its sum with the
old RdHi:RdLo. -/
theorem multiplyLongResults : Obligations.MultiplyLongResults := by
  intro a s hc ha
  have writes (op : Word → Word → BitVec 64 → BitVec 64) {P : BitVec 64 → Prop}
      (hP : P (op (s.reg a.rm) (s.reg a.rs) (s.reg a.rdHi ++ s.reg a.rdLo))) :
      ∃ t p, execute a.cond (mullBody op a) s = .next t ∧ WritesLong s t a p ∧ P p := by
    obtain ⟨t, ht, hw⟩ := execute_mullBody_writesLong op hc ha
    exact ⟨t, _, ht, hw, hP⟩
  refine ⟨writes opUmull (opUmull_toNat ..), writes opUmlal ?_, writes opSmull (opSmull_toInt ..),
    writes opSmlal ?_⟩
  · rw [opUmlal_toNat, toNat_wordPair]
  · rw [opSmlal_toNat, toNat_wordPair]
    norm_cast

end Sys2Proof.Machine
end

section
/-! PSR transfer: what MRS reads, the checks of MSR in their order, and what an MSR that completes
leaves in the CPSR or in an SPSR (44_psr_transfer.md R210 to R217). -/

namespace Sys2Proof.Machine

/-! MRS (R210, R211). -/

theorem mrsBody_fifteen {a : MrsArgs} (hd : a.rd = 15) (s : State) :
    mrsBody a s = .error (.undefinedInstruction .pcOperandDisallowed) :=
  if_pos hd

theorem mrsBody_cpsr {a : MrsArgs} (hd : a.rd ≠ 15) (hr : a.spsr = false) (s : State) :
    mrsBody a s = .ok (s.setReg a.rd s.cpsr.toWord) := by
  simp [mrsBody, hd, hr]

theorem mrsBody_spsr {a : MrsArgs} {s : State} {m : ExcMode} (hd : a.rd ≠ 15)
    (hr : a.spsr = true) (hm : s.cpsr.mode = m.mode) :
    mrsBody a s = .ok (s.setReg a.rd (s.spsrs.read m)) := by
  simp [mrsBody, hd, hr, State.spsr?_eq_some hm]

/-- An instruction whose one write is of a register other than r15 (46_dispatch.md R244). -/
theorem execute_setReg {c : Cond} {body : State → Except NonOk State} {s : State} {rd : Reg}
    {w : Word} (hc : Passes c s) (hd : rd ≠ 15)
    (hbody : body { s with pcWritten := false } =
      .ok (({ s with pcWritten := false } : State).setReg rd w)) :
    ∃ t, execute c body s = .next t ∧ Completes s t ∧ t.pc = s.pc + 4#32 ∧
      WritesReg s t rd w ∧ t.cpsr = s.cpsr ∧ KeepsSpsrs s t :=
  ⟨_, execute_ok hc hbody, (BodyFrame.setReg ..).completes_commit,
    (State.setReg_nextPc { s with pcWritten := false } rfl rd w).trans (if_neg hd),
    State.setReg_read { s with pcWritten := false } rd w, by simp, fun m => by simp⟩

/-- Settles O29: by Rd, the R bit and the mode, MRS traps or is one register write. -/
theorem mrsReads : Obligations.MrsReads := by
  intro a s hc
  refine ⟨fun hd => ?_, fun hd hr hm => ?_, fun hd hr => ?_, fun m hd hr hm => ?_⟩
  · exact execute_traps_undefined hc (mrsBody_fifteen hd _)
  · exact execute_traps_undefined hc (mrsBody_without_spsr (State.spsr?_eq_none hm) hd hr)
  · exact execute_setReg hc hd (mrsBody_cpsr hd hr _)
  · exact execute_setReg hc hd (mrsBody_spsr hd hr hm)

/-! The checks of MSR (R213). -/

theorem msrChecks_immediate_control (spsr : Bool) (s : State) :
    msrChecks true spsr true false s = some (.undefinedInstruction .msrImmediateControl) := by
  simp [msrChecks]

theorem msrChecks_user_control {sbz : Bool} {s : State} (hz : s.cfg.strict = true → sbz = false)
    (hu : s.cpsr.mode = .usr) :
    msrChecks false false true sbz s = some (.undefinedInstruction .msrUserControl) := by
  simpa [msrChecks, hu] using hz

/-- The checks pass where none of the four stops. -/
theorem msrChecks_passes {imm spsr c sbz : Bool} {s : State}
    (hz : s.cfg.strict = true → sbz = false) (hi : imm = true → c = false)
    (hr : spsr = true → s.spsr? ≠ none) (hu : c = true → s.cpsr.mode ≠ .usr) :
    msrChecks imm spsr c sbz s = none := by
  have hsbz : ¬(s.cfg.strict && sbz) = true := by simpa using hz
  have himm : ¬(c && imm) = true := by cases imm <;> simp_all
  have hspsr : ¬(spsr && s.spsr?.isNone) = true := by simpa using hr
  have huser : ¬(c && s.cpsr.mode == .usr) = true := by simpa using hu
  rw [msrChecks, if_neg hsbz, if_neg himm, if_neg hspsr, if_neg huser]

theorem msrRegBody_of_passes {a : MsrRegArgs} {s : State} {spsr : Bool} (hr : a.spsr = spsr)
    (hz : s.cfg.strict = true → a.sbz = 0#8) (hs : spsr = true → s.spsr? ≠ none)
    (hu : a.c = true → s.cpsr.mode ≠ .usr) :
    msrRegBody a s = msrWrite spsr a.f a.c (s.reg a.rm) s := by
  have hpass := msrChecks_passes (imm := false) (sbz := a.sbz != 0#8) (by simpa using hz)
    nofun hs hu
  rw [msrRegBody, hr, hpass]

theorem msrImmBody_of_passes {a : MsrImmArgs} {s : State} {spsr : Bool} (hr : a.spsr = spsr)
    (hc : a.c = false) (hs : spsr = true → s.spsr? ≠ none) :
    msrImmBody a s = msrWrite spsr a.f false (immOperand a.rotate a.imm8 s.cpsr.c).value s := by
  rw [msrImmBody, hr, hc, msrChecks_passes (fun _ => rfl) (fun _ => rfl) hs nofun]

theorem msrImmBody_control {a : MsrImmArgs} (hc : a.c = true) (s : State) :
    msrImmBody a s = .error (.undefinedInstruction .msrImmediateControl) := by
  rw [msrImmBody, hc, msrChecks_immediate_control]

theorem msrRegBody_user_control {a : MsrRegArgs} {s : State}
    (hz : s.cfg.strict = true → a.sbz = 0#8) (hr : a.spsr = false) (hc : a.c = true)
    (hu : s.cpsr.mode = .usr) :
    msrRegBody a s = .error (.undefinedInstruction .msrUserControl) := by
  rw [msrRegBody, hr, hc, msrChecks_user_control (by simpa using hz) hu]

/-- Settles O32: each trap is the first check that stops. -/
theorem msrChecksTrap : Obligations.MsrChecksTrap := by
  refine ⟨fun a s hp => ⟨fun hc => ?_, fun hc hr hm => ?_⟩,
    fun a s hp hz => ⟨fun hr hm => ?_, fun hr hc hu => ?_⟩⟩
  · exact execute_traps_undefined hp (msrImmBody_control hc _)
  · exact execute_traps_undefined hp (msrImmBody_without_spsr (State.spsr?_eq_none hm) hc hr)
  · exact execute_traps_undefined hp (msrRegBody_without_spsr (State.spsr?_eq_none hm) hz hr)
  · exact execute_traps_undefined hp (msrRegBody_user_control hz hr hc hu)

/-! The write of an SPSR (R214, 10_state.md R36). -/

theorem msrWrite_spsr {s : State} {m : ExcMode} (hm : s.cpsr.mode = m.mode) (f c : Bool)
    (v : Word) :
    msrWrite true f c v s =
      .ok { s with spsrs := s.spsrs.write m (msrMerge f c (s.spsrs.read m) v) } := by
  simp [msrWrite, hm]

/-- An MSR to the SPSR in an exception mode, once its checks pass. -/
theorem execute_msrWrite_spsr {cond : Cond} {body : State → Except NonOk State} {s : State}
    {m : ExcMode} {f c : Bool} {v : Word} (hp : Passes cond s) (hm : s.cpsr.mode = m.mode)
    (hbody : body { s with pcWritten := false } =
      msrWrite true f c v { s with pcWritten := false }) :
    ∃ t, execute cond body s = .next t ∧ WritesSpsr s t m f c v := by
  have hok := msrWrite_spsr (s := { s with pcWritten := false }) hm f c v
  refine ⟨_, execute_ok hp (hbody.trans hok), (msrWrite_frame hok).completes_commit, rfl,
    fun _ => rfl, rfl, ?_, fun n hn => ?_⟩
  · simpa using msrMerge_merged f c (s.spsrs.read m) v
  · simp [SpsrFile.read_write, hn]

theorem State.spsr?_ne_none {s : State} {m : ExcMode} (hm : s.cpsr.mode = m.mode) :
    s.spsr? ≠ none := by
  simp [State.spsr?_eq_some hm]

theorem ExcMode.mode_ne_usr (m : ExcMode) : m.mode ≠ .usr := by
  cases m <;> decide

/-- Settles O31: in an exception mode no check of R213 stops, and the write of an SPSR checks no
mode. -/
theorem msrWritesSpsr : Obligations.MsrWritesSpsr := by
  refine ⟨fun a s m hp hr hm hz => ?_, fun a s m hp hr hc hm => ?_⟩
  · exact execute_msrWrite_spsr hp hm (msrRegBody_of_passes hr hz
      (fun _ => State.spsr?_ne_none hm) fun _ => hm ▸ m.mode_ne_usr)
  · exact execute_msrWrite_spsr hp hm (msrImmBody_of_passes hr hc
      fun _ => State.spsr?_ne_none hm)

/-! The write of the CPSR (R214, R215). -/

section
variable {s : State} {f c : Bool} {v : Word}

/-- The merged CPSR word has no field view only when an invalid mode is written; without the control
enable the mode is the old one (10_state.md R32). -/
theorem ofWord?_msrMerge_eq_none {p : Psr} :
    Psr.ofWord? (msrMerge f c p.toWord v) = none ↔
      c = true ∧ Mode.ofBits (v.extractLsb' 0 5) = none := by
  rw [Psr.ofWord?_eq_none, msrMerge_mode]
  cases c <;> simp [Psr.toWord_mode]

theorem ofWord?_msrMerge_t {old : Word} {p : Psr}
    (h : Psr.ofWord? (msrMerge f c old v) = some p) :
    p.t = (if c then v else old).getLsbD 5 := by
  obtain ⟨-, -, -, -, -, -, -, ht, -⟩ := Psr.ofWord?_some h
  rw [ht, msrMerge_merged f c old v 5 (by decide)]
  cases c <;> simp

theorem msrWrite_invalidMode (hm : Mode.ofBits (v.extractLsb' 0 5) = none) :
    msrWrite false f true v s = .error (.unpredictable .invalidMode) := by
  simp [msrWrite, ofWord?_msrMerge_eq_none.mpr ⟨rfl, hm⟩]

theorem msrWrite_tBitWrite (hm : Mode.ofBits (v.extractLsb' 0 5) ≠ none)
    (hs : s.cfg.strict = true) (ht : v.getLsbD 5 ≠ s.cpsr.t) :
    msrWrite false f true v s = .error (.unpredictable .tBitWrite) := by
  obtain ⟨p, hp⟩ := Option.ne_none_iff_exists'.mp fun h =>
    hm (ofWord?_msrMerge_eq_none (f := f) (c := true) (p := s.cpsr).mp h).2
  have htp : (p.t != s.cpsr.t) = true := by
    rw [ofWord?_msrMerge_t hp]
    exact bne_iff_ne.mpr ht
  simp [msrWrite, hp, hs, htp]

/-- A valid mode, and under strict an unchanged T, go to the CPSR. -/
theorem msrWrite_cpsr (hv : c = true → Mode.ofBits (v.extractLsb' 0 5) ≠ none ∧
      (s.cfg.strict = true → v.getLsbD 5 = s.cpsr.t)) :
    ∃ p, p.toWord = msrMerge f c s.cpsr.toWord v ∧
      msrWrite false f c v s = .ok { s with cpsr := p } := by
  obtain ⟨p, hp⟩ := Option.ne_none_iff_exists'.mp fun h =>
    let ⟨hc, hm⟩ := (ofWord?_msrMerge_eq_none (f := f) (p := s.cpsr)).mp h
    (hv hc).1 hm
  have ht : ¬(s.cfg.strict && c && p.t != s.cpsr.t) = true := by
    rw [ofWord?_msrMerge_t hp]
    simp only [Bool.and_eq_true, bne_iff_ne, not_and, not_not]
    rintro ⟨hs, hc⟩
    simpa [hc] using (hv hc).2 hs
  refine ⟨p, Psr.toWord_of_ofWord? hp, ?_⟩
  simp only [msrWrite, hp, if_neg ht, Bool.false_eq_true, if_false]

/-- An MSR to the CPSR, once its checks pass. -/
theorem execute_msrWrite_cpsr {cond : Cond} {body : State → Except NonOk State}
    (hp : Passes cond s)
    (hv : c = true → Mode.ofBits (v.extractLsb' 0 5) ≠ none ∧
      (s.cfg.strict = true → v.getLsbD 5 = s.cpsr.t))
    (hbody : body { s with pcWritten := false } =
      msrWrite false f c v { s with pcWritten := false }) :
    ∃ t, execute cond body s = .next t ∧ WritesCpsr s t f c v := by
  obtain ⟨p, hw, hok⟩ := msrWrite_cpsr (s := { s with pcWritten := false }) (f := f) hv
  refine ⟨_, execute_ok hp (hbody.trans hok), (msrWrite_frame hok).completes_commit, rfl,
    fun _ => rfl, fun _ => rfl, ?_⟩
  rw [State.commit_cpsr, hw]
  exact msrMerge_merged f c s.cpsr.toWord v

end

/-- Settles O30: the checks pass, and the merged word is a CPSR. -/
theorem msrWritesCpsr : Obligations.MsrWritesCpsr := by
  refine ⟨fun a s hp hr hz hv => ?_, fun a s hp hr hc => ?_⟩
  · exact execute_msrWrite_cpsr hp (fun hc => (hv hc).2)
      (msrRegBody_of_passes hr hz nofun fun hc => (hv hc).1)
  · exact execute_msrWrite_cpsr hp nofun (msrImmBody_of_passes hr hc nofun)

/-- Settles O33: outside User mode the checks pass, so the write of the CPSR decides, the mode
first and then T. -/
theorem msrFaults : Obligations.MsrFaults := by
  intro a s hp hz hr hc hu
  have hbody := msrRegBody_of_passes (s := { s with pcWritten := false }) hr hz nofun fun _ => hu
  rw [hc] at hbody
  exact ⟨fun hm => execute_unpredictable hp (hbody.trans (msrWrite_invalidMode hm)),
    fun hm hs ht => execute_unpredictable hp (hbody.trans (msrWrite_tBitWrite hm hs ht))⟩

end Sys2Proof.Machine
end

section
/-! Branches: the target as a number, the jump every one of them ends with, and what B, BL and BX
leave (45_branch.md R230 to R234). -/

namespace Sys2Proof.Machine

/-! Targets as numbers. -/

/-- The offset in bytes is four times the signed field: the shift loses no bit (R230). -/
theorem branchOffset_toInt (imm24 : BitVec 24) :
    (branchOffset imm24).toInt = 4 * imm24.toInt := by
  have hlow : -2 ^ 23 ≤ imm24.toInt := BitVec.le_toInt imm24
  have hhigh : imm24.toInt < 2 ^ 23 := BitVec.toInt_lt
  have hsext : (imm24.signExtend 32).toInt = imm24.toInt :=
    BitVec.toInt_signExtend_of_le (by decide)
  rw [branchOffset, BitVec.shiftLeft_eq_mul_twoPow, BitVec.toInt_mul, hsext, mul_comm]
  exact Int.bmod_eq_of_le (m := 2 ^ 32) (n := 4 * imm24.toInt) (by omega) (by omega)

/-- The target of B and BL, modulo 2^32 (R230, R231). -/
theorem branchTarget_toNat (pc : Word) (imm24 : BitVec 24) :
    ((pc + 8#32 + branchOffset imm24).toNat : Int) =
      ((pc.toNat : Int) + 8 + 4 * imm24.toInt) % 2 ^ 32 := by
  have hoff := branchOffset_toInt imm24
  rw [BitVec.toInt_eq_toNat_bmod] at hoff
  have := Int.bmod_emod (x := (branchOffset imm24).toNat) (m := 2 ^ 32)
  rw [BitVec.toNat_add, BitVec.toNat_add, ← hoff]
  simp only [BitVec.toNat_ofNat]
  omega

/-- From an aligned pc the target of B and BL is aligned (R234). -/
theorem branchTarget_aligned {pc : Word} (imm24 : BitVec 24) (h : pc.toNat % 4 = 0) :
    (pc + 8#32 + branchOffset imm24).toNat % 4 = 0 := by
  have := branchTarget_toNat pc imm24
  omega

/-- The link value `cur - 4` with `cur = pc + 8` (R231). -/
theorem branchLink_eq (pc : Word) : pc + 8#32 - 4#32 = pc + 4#32 := by
  bv_omega

/-- The target of BX is even (R233). -/
theorem clearBit0_toNat (v : Word) : (v &&& 0xFFFFFFFE#32).toNat = 2 * (v.toNat / 2) := by
  have hmask : 0xFFFFFFFE#32 = BitVec.allOnes 32 <<< 1 := by decide
  rw [hmask, ← BitVec.shiftLeft_ushiftRight, BitVec.toNat_shiftLeft,
    BitVec.toNat_ushiftRight, Nat.shiftLeft_eq, Nat.shiftRight_eq_div_pow]
  omega

/-- The bit of BX that goes to T (R233). -/
theorem bit0_eq_odd (v : Word) : v.getLsbD 0 = decide (v.toNat % 2 = 1) := by
  simp [BitVec.getLsbD]

/-! The jump. -/

theorem BodyFrame.refl (s : State) : BodyFrame s s :=
  ⟨rfl, rfl, rfl, rfl, rfl, rfl, rfl, rfl, rfl⟩

/-- An instruction whose last write is of r15: the step goes to the value written, and what the writes
before it, which gave `u`, left in the registers and status registers stays (R234, 10_state.md R29). -/
theorem execute_jump {c : Cond} {body : State → Except NonOk State} {s u : State} {v : Word}
    (hc : Passes c s) (hu : BodyFrame { s with pcWritten := false } u)
    (hbody : body { s with pcWritten := false } = .ok (u.setReg 15 v)) :
    ∃ t, execute c body s = .next t ∧ Completes s t ∧ t.pc = v ∧ t.regs = u.regs ∧
      t.cpsr = u.cpsr ∧ t.spsrs = u.spsrs :=
  ⟨_, execute_ok hc hbody, (hu.trans (BodyFrame.setReg ..)).completes_commit,
    by simp [State.nextPc], by simp, by simp, by simp⟩

/-! B, BL and BX. -/

/-- Settles O34: B is one jump, BL is the same jump after the write of r14. -/
theorem branchTargets : Obligations.BranchTargets := by
  intro a s hc
  constructor
  · obtain ⟨t, ht, hcomp, hpc, hregs, hcpsr, hspsrs⟩ :=
      execute_jump (body := branchBody a) hc (BodyFrame.refl _) rfl
    exact ⟨t, ht, hcomp, hpc ▸ branchTarget_toNat s.pc a.imm24, fun p => by rw [hregs], hcpsr,
      fun m => by rw [hspsrs], hpc ▸ branchTarget_aligned a.imm24⟩
  · obtain ⟨t, ht, hcomp, hpc, hregs, hcpsr, hspsrs⟩ :=
      execute_jump (body := branchLinkBody a) hc (BodyFrame.setReg ..) rfl
    refine ⟨t, ht, hcomp, hpc ▸ branchTarget_toNat s.pc a.imm24, fun p => ?_, by simp [hcpsr],
      fun m => by simp [hspsrs], hpc ▸ branchTarget_aligned a.imm24⟩
    rw [hregs, State.setReg_read, branchLink_eq]

/-- The two writes of BX in the other order: T first, then the jump. -/
theorem branchExchangeBody_eq (a : BxArgs) (s : State) :
    branchExchangeBody a s =
      .ok (({ s with cpsr := { s.cpsr with t := (s.reg a.rn).getLsbD 0 } } : State).setReg 15
        (s.reg a.rn &&& 0xFFFFFFFE#32)) := by
  simp [branchExchangeBody]

/-- Settles O35: BX is a jump after the write of T. -/
theorem branchExchange : Obligations.BranchExchange := by
  intro a s hc
  obtain ⟨t, ht, hcomp, hpc, hregs, hcpsr, hspsrs⟩ :=
    execute_jump hc ((BodyFrame.refl _).withCpsr _) (branchExchangeBody_eq a _)
  refine ⟨t, ht, hcomp, hpc ▸ clearBit0_toNat (s.reg a.rn), ?_, fun p => by rw [hregs],
    fun m => by rw [hspsrs]⟩
  rw [hcpsr, ← bit0_eq_odd]
  rfl

end Sys2Proof.Machine
end

section
/-! The step around the instruction: what it fetches and runs, what it leaves between two steps, the
classes that raise one outcome, and the end of a run (46_dispatch.md). -/

namespace Sys2Proof.Machine

/-! The hidden state between two steps (R243, R244). -/

/-- The hidden state stands as it does between two steps: `phase = Fetch` and no PC write pending
(46_dispatch.md R243, 10_state.md R29). -/
structure AtBoundary (s : State) : Prop where
  phase : s.phase = .fetch
  pcWritten : s.pcWritten = false

theorem State.commit_atBoundary (s : State) : AtBoundary s.commit :=
  ⟨s.commit_phase, s.commit_pcWritten⟩

theorem State.skip_atBoundary (s : State) : AtBoundary s.skip :=
  ⟨s.skip_phase, s.skip_pcWritten⟩

theorem trapEntered_atBoundary (k : ExcKind) (o : NonOk) (s : State) :
    AtBoundary (trapEntered k o s) :=
  ⟨trapEntered_phase k o s, trapEntered_pcWritten k o s⟩

theorem trapReported_atBoundary (o : NonOk) (s : State) : AtBoundary (trapReported o s) :=
  ⟨trapReported_phase o s, trapReported_pcWritten o s⟩

theorem routeTrap_atBoundary (k : ExcKind) (o : NonOk) (s : State) :
    AtBoundary (routeTrap k o s) := by
  rcases routeTrap_cases k o s with ⟨-, h⟩ | ⟨-, h⟩
  · exact h ▸ trapEntered_atBoundary k o s
  · exact h ▸ trapReported_atBoundary o s

/-- An instruction ends at a boundary, wherever it starts (R244). -/
theorem exec_atBoundary {i : Instr} {s t : State} (h : exec i s = .next t) : AtBoundary t := by
  rcases exec_next h with ⟨k, o, rfl⟩ | ⟨k, rfl⟩ | rfl | ⟨u, -, rfl⟩
  · exact routeTrap_atBoundary k o s
  · exact trapEntered_atBoundary k.exc _ s
  · exact s.skip_atBoundary
  · exact u.commit_atBoundary

/-- The only step that needs a boundary to end at one is that of a core that is not running. -/
theorem step_atBoundary {s t : State} (hs : AtBoundary s) (h : step s = .next t) :
    AtBoundary t := by
  rcases step_next h with ⟨-, rfl⟩ | ⟨-, k, -, rfl⟩ | ⟨-, -, -, rfl⟩ | ⟨-, w, i, -, -, h⟩
  · exact hs
  · exact trapEntered_atBoundary k.exc _ s
  · exact routeTrap_atBoundary .prefetchAbort _ s
  · exact exec_atBoundary h

/-- Settles O47: memory and parameters stay, and each way a step can end is at a boundary. -/
theorem stepKeepsInvariant : Obligations.StepKeepsInvariant := by
  intro s t ⟨hwf, hphase, hpw, hcfg⟩ h
  have hkeep := step_keepsSurroundings h
  have hend := step_atBoundary ⟨hphase, hpw⟩ h
  exact ⟨hkeep.mem ▸ hwf, hend.phase, hend.pcWritten, hkeep.cfg ▸ hcfg⟩

/-! The fetch (20_memory.md R60, R62, R66). -/

/-- Four bytes with a value make the word at their address. -/
theorem Memory.readWord_of_bytes {m : Memory} (e : Endian) {a : Word} {b0 b1 b2 b3 : Byte}
    (h0 : m.readByte (byteAddr a 0) = some b0) (h1 : m.readByte (byteAddr a 1) = some b1)
    (h2 : m.readByte (byteAddr a 2) = some b2) (h3 : m.readByte (byteAddr a 3) = some b3) :
    m.readWord e a = some (wordOfBytes e b0 b1 b2 b3) := by
  simp [Memory.readWord, h0, h1, h2, h3]

/-- A word has no value where one of its bytes has none. -/
theorem Memory.readWord_eq_none {m : Memory} (e : Endian) {a : Word} {k : Nat} (hk : k < 4)
    (h : m.readByte (byteAddr a k) = none) : m.readWord e a = none := by
  unfold Memory.readWord
  split
  · rename_i h0 h1 h2 h3
    obtain rfl | rfl | rfl | rfl : k = 0 ∨ k = 1 ∨ k = 2 ∨ k = 3 := by omega
    · exact nomatch h0.symm.trans h
    · exact nomatch h1.symm.trans h
    · exact nomatch h2.symm.trans h
    · exact nomatch h3.symm.trans h
  · rfl

theorem State.fetch_of_bytes {s : State} {b0 b1 b2 b3 : Byte} (ha : pcAligned s.pc = true)
    (h0 : s.mem.readByte s.pc.toNat = some b0) (h1 : s.mem.readByte (s.pc.toNat + 1) = some b1)
    (h2 : s.mem.readByte (s.pc.toNat + 2) = some b2)
    (h3 : s.mem.readByte (s.pc.toNat + 3) = some b3) :
    s.fetch = some (wordOfBytes s.cfg.fetchEndian b0 b1 b2 b3) := by
  have addr {k : Nat} (hk : k < 4) : byteAddr s.pc k = s.pc.toNat + k := byteAddr_of_aligned ha hk
  exact Memory.readWord_of_bytes _ (by rwa [addr (by decide)]) (by rwa [addr (by decide)])
    (by rwa [addr (by decide)]) (by rwa [addr (by decide)])

theorem State.fetch_eq_none {s : State} {k : Nat} (ha : pcAligned s.pc = true) (hk : k < 4)
    (h : s.mem.readByte (s.pc.toNat + k) = none) : s.fetch = none :=
  Memory.readWord_eq_none _ hk (by rwa [byteAddr_of_aligned ha hk])

/-! A step that fetches (R241, R250). -/

/-- A step that fetches a word runs the instruction the word decodes to. -/
theorem step_of_fetch {s : State} {w : Word} {i : Instr} (hs : s.Ready) (hf : s.fetch = some w)
    (hd : decodeWord w = .ok i) : step s = exec i (s.fetched w) := by
  obtain ⟨hrun, hirq, ht, ha⟩ := hs
  simp [step, hrun, hirq, ht, ha, hf, hd]

/-- A step whose fetch faults ends with the fetch fault of the pc. -/
theorem step_of_fetch_none {s : State} (hs : s.Ready) (hf : s.fetch = none) :
    step s = settle (.fetchFault s.pc) s := by
  obtain ⟨hrun, hirq, ht, ha⟩ := hs
  simp [step, hrun, hirq, ht, ha, hf]

/-- What four bytes decode to is what their word decodes to. -/
theorem decodeWord_of_decodeBytes {e : Endian} {b0 b1 b2 b3 : Byte} {i : Instr}
    {rest rest' : List Byte}
    (h : decodeBytes e (b0 :: b1 :: b2 :: b3 :: rest) = .ok (i, rest')) :
    decodeWord (wordOfBytes e b0 b1 b2 b3) = .ok i := by
  simp only [decodeBytes] at h
  split at h
  · cases h
    assumption
  · cases h

/-- Settles O6: the four bytes are the fetched word, which decodes to the same instruction. -/
theorem stepRunsDecoded : Obligations.StepRunsDecoded := by
  intro s b0 b1 b2 b3 i hs h0 h1 h2 h3 hd
  have ⟨_, _, _, ha⟩ := hs
  exact step_of_fetch hs (State.fetch_of_bytes ha h0 h1 h2 h3) (decodeWord_of_decodeBytes hd)

/-- Settles O7: the two checks before the fetch. -/
theorem stopsBeforeFetch : Obligations.StopsBeforeFetch :=
  fun _ hrun hirq => ⟨step_thumb hrun hirq, step_misaligned hrun hirq⟩

/-- A fetch fault is surfaced with nothing committed (60_exceptions.md R263). -/
theorem settle_fetchFault_surface {s : State} (a : Word) (h : s.cfg.fetchFaultPolicy = .surface) :
    settle (.fetchFault a) s = .fault (.fetchFault a) := by
  simp [settle, h]

/-- A fetch fault is the prefetch abort, raised before a word is fetched
(60_exceptions.md R263, R269). -/
theorem settle_fetchFault_prefetchAbort {s : State} (a : Word)
    (h : s.cfg.fetchFaultPolicy = .prefetchAbort) :
    Traps s (settle (.fetchFault a) s) .abt 0x0C#32 (.fetchFault a) none := by
  have hsettle : settle (.fetchFault a) s =
      .next (routeTrap .prefetchAbort (.fetchFault a) s) := by
    simp [settle, h]
  rw [hsettle]
  exact routeTrap_traps .prefetchAbort (by decide) _ s rfl rfl

/-- Settles O8: a byte without a value makes the fetch fault, which goes by the policy. -/
theorem fetchFaultRouted : Obligations.FetchFaultRouted := by
  intro s k hs hk h
  have ⟨_, _, _, ha⟩ := hs
  rw [step_of_fetch_none hs (State.fetch_eq_none ha hk h)]
  exact ⟨settle_fetchFault_surface s.pc, settle_fetchFault_prefetchAbort s.pc⟩

/-! The classes that raise one outcome (R246 to R249). -/

theorem raises_of_passes {c : Cond} {s : State} (hc : Passes c s) (o : NonOk) :
    raises c o s = settle o s :=
  execute_error hc rfl

theorem raises_traps_undefined {c : Cond} {s : State} (hc : Passes c s) (r : UndefReason) :
    TrapsUndefined s (raises c (.undefinedInstruction r) s) r :=
  execute_traps_undefined hc rfl

theorem refusesMemory_of_passes {c : Cond} {s : State} (hc : Passes c s) (m : MemClass) :
    refusesMemory c m s = .refused (.memoryClass m) :=
  raises_of_passes hc _

/-- A software interrupt takes its trap (60_exceptions.md R262, R269). -/
theorem settle_softwareInterrupt (s : State) (comment : BitVec 24) :
    Traps s (settle (.softwareInterrupt comment) s) .svc 0x08#32 (.softwareInterrupt comment)
      (some s.ir) :=
  routeTrap_traps .swi (by decide) _ s rfl rfl

/-- Settles O36: the outcome of SWI is the software interrupt with its comment. -/
theorem softwareInterruptTraps : Obligations.SoftwareInterruptTraps := by
  intro a s hc
  have hexec : exec (.swi a) s = settle (.softwareInterrupt a.comment) s := raises_of_passes hc _
  rw [hexec]
  exact settle_softwareInterrupt s a.comment

/-- Settles O37: each of these classes raises its reason and nothing else. -/
theorem undefinedClassesTrap : Obligations.UndefinedClassesTrap := by
  intro s
  refine ⟨fun a hc => ?_, fun a hc => ⟨?_, ?_⟩, fun a hc => ?_, fun a hc => ⟨?_, ?_⟩,
    fun a hc => ?_⟩
  all_goals exact raises_traps_undefined hc _

/-- Settles O38: each memory instruction is the refusal of its class. -/
theorem memoryClassesRefused : Obligations.MemoryClassesRefused := by
  intro s
  simp only [List.forall_mem_cons, List.not_mem_nil, false_imp_iff, implies_true, and_true]
  refine ⟨⟨?_, ?_⟩, ⟨?_, ?_, ?_, ?_⟩, ?_, ⟨?_, ?_, ?_, ?_⟩, ?_, ⟨?_, ?_, ?_, ?_⟩, ?_, ?_⟩
  all_goals exact fun a hc => refusesMemory_of_passes hc _

/-! The end of a run (R244, R245). -/

@[simp] theorem State.finalRecord_pc (s : State) (o : NonOk) : (s.finalRecord o).pc = s.pc := by
  unfold State.finalRecord
  split <;> rfl

@[simp] theorem State.finalRecord_outcome (s : State) (o : NonOk) :
    (s.finalRecord o).outcome = o := by
  unfold State.finalRecord
  split <;> rfl

theorem State.afterStep_of_next {s t : State} (h : step s = .next t) : s.afterStep = t := by
  simp [State.afterStep, h]

theorem State.afterStep_of_fault {s : State} {f : Fault} (h : step s = .fault f) :
    s.afterStep = { s with run := .faulted f, report := some (s.finalRecord f.outcome) } := by
  simp [State.afterStep, h]

theorem State.afterStep_of_refused {s : State} {q : Refusal} (h : step s = .refused q) :
    s.afterStep = { s with run := .refused q, report := some (s.finalRecord (.refused q)) } := by
  simp [State.afterStep, h]

/-- Settles O51, by the three outcomes of a step. -/
theorem stopCommitsNothing : Obligations.StopCommitsNothing := fun s =>
  ⟨fun _ h => ⟨_, State.afterStep_of_fault h, s.finalRecord_pc _, s.finalRecord_outcome _⟩,
    fun _ h => ⟨_, State.afterStep_of_refused h, s.finalRecord_pc _, s.finalRecord_outcome _⟩,
    fun _ => State.afterStep_of_next⟩

theorem step_of_not_running {s : State} (h : s.run ≠ .running) : step s = .next s := by
  unfold step
  split
  · rfl
  · rfl
  · rfl
  · exact absurd ‹_› h

/-- The loop keeps a state that one step keeps. -/
theorem State.loop_of_step_self {s : State} (h : step s = .next s) (n : Nat) :
    State.loop n s = s := by
  induction n with
  | zero => rfl
  | succ n ih => rw [State.loop, State.afterStep_of_next h, ih]

/-- Settles O53: the step stays, and so does the loop. -/
theorem stoppedCoreStays : Obligations.StoppedCoreStays := fun _ h =>
  ⟨step_of_not_running h, State.loop_of_step_self (step_of_not_running h)⟩

end Sys2Proof.Machine
end

section
/-! Exceptions: the kinds a step raises, the interrupt test, the host's requests, and the return from an
exception (60_exceptions.md R267 to R276). -/

namespace Sys2Proof.Machine

/-! The exception kinds a step raises (R269): Reset and DataAbort are left to the host. -/

/-- The exception kinds the block raises itself (R269, last column). -/
def raisedKinds : List ExcKind := [.undef, .swi, .prefetchAbort, .irq, .fiq]

section
variable {k : ExcKind}

theorem ne_reset_of_raised (hk : k ∈ raisedKinds) : k ≠ .reset := by
  rintro rfl
  exact absurd hk (by decide)

theorem link_of_raised (hk : k ∈ raisedKinds) (cfg : Config) (pc : Word) :
    k.link cfg pc = pc + 4#32 := by
  cases k with
  | reset | dataAbort => exact absurd hk (by decide)
  | undef | swi | prefetchAbort | irq | fiq => rfl

theorem setsF_of_raised (hk : k ∈ raisedKinds) : k.setsF = decide (k.target = .fiq) := by
  cases k with
  | reset => exact absurd hk (by decide)
  | undef | swi | prefetchAbort | dataAbort | irq | fiq => rfl

/-- What routing an outcome answers as a next state: an exception the block raises is entered, or the
trap is reported (R267, R268). -/
theorem settle_next_raised {o : NonOk} {s t : State} (h : settle o s = .next t) :
    (∃ k ∈ raisedKinds, t = trapEntered k o s) ∨ t = trapReported o s := by
  have routed {k : ExcKind} (hk : k ∈ raisedKinds) (ht : t = routeTrap k o s) :
      (∃ k ∈ raisedKinds, t = trapEntered k o s) ∨ t = trapReported o s :=
    (routeTrap_cases k o s).imp (fun hr => ⟨k, hk, ht.trans hr.2⟩) fun hr => ht.trans hr.2
  cases o with
  | undefinedInstruction r => exact routed (k := .undef) (by decide) (by cases h; rfl)
  | softwareInterrupt c => exact routed (k := .swi) (by decide) (by cases h; rfl)
  | fetchFault a =>
    simp only [settle] at h
    split at h
    · cases h
    · exact routed (k := .prefetchAbort) (by decide) (by cases h; rfl)
  | interruptTaken k =>
    cases h
    exact .inl ⟨k.exc, by cases k <;> decide, rfl⟩
  | refused r | unpredictable r | classificationFailure w => cases h

end

/-- The entry of an exception the block raises, with its row of R269. -/
theorem trapEntered_entered_of_raised {k : ExcKind} (hk : k ∈ raisedKinds) (o : NonOk) (s : State) :
    Entered s (trapEntered k o s) k.target k.offset (s.pc + 4#32) (decide (k.target = .fiq)) := by
  rw [← link_of_raised hk s.cfg, ← setsF_of_raised hk]
  exact trapEntered_entered k (ne_reset_of_raised hk) o s

/-- The mode and the vector of an exception the block raises (R269). -/
theorem target_offset_of_raised {k : ExcKind} (hk : k ∈ raisedKinds) :
    (k.target, k.offset) ∈ [(ExcMode.und, 0x04#32), (.svc, 0x08#32), (.abt, 0x0C#32),
      (.irq, 0x18#32), (.fiq, 0x1C#32)] :=
  List.mem_map_of_mem (f := fun k => (k.target, k.offset)) hk

/-! The interrupt test before the fetch (R272, R273). -/

section
variable {s : State}

theorem boundaryInterrupt_fiq (ha : s.cfg.trapEntry = .apply) (hreq : s.fiqReq = true)
    (hmask : s.cpsr.f = false) : boundaryInterrupt s = some .fiq := by
  simp [boundaryInterrupt, ha, hreq, hmask]

/-- A request that is low or masked is not taken. -/
theorem request_not_taken {req mask : Bool} (h : req = false ∨ mask = true) :
    (req && !mask) = false := by
  rcases h with rfl | rfl <;> simp

theorem boundaryInterrupt_irq (ha : s.cfg.trapEntry = .apply)
    (hfiq : s.fiqReq = false ∨ s.cpsr.f = true) (hreq : s.irqReq = true)
    (hmask : s.cpsr.i = false) : boundaryInterrupt s = some .irq := by
  simp [boundaryInterrupt, ha, request_not_taken hfiq, hreq, hmask]

theorem boundaryInterrupt_none (h : s.cfg.trapEntry = .report ∨
    ((s.fiqReq = false ∨ s.cpsr.f = true) ∧ (s.irqReq = false ∨ s.cpsr.i = true))) :
    boundaryInterrupt s = none := by
  unfold boundaryInterrupt
  split
  · rfl
  · rename_i ha
    rcases h with hr | ⟨hfiq, hirq⟩
    · exact nomatch ha.symm.trans hr
    · simp [request_not_taken hfiq, request_not_taken hirq]

/-- An interrupt is taken before anything else of the step. -/
theorem step_of_interrupt {k : IrqKind} (hr : s.run = .running)
    (hi : boundaryInterrupt s = some k) :
    step s = .next (trapEntered k.exc (.interruptTaken k) s) := by
  simp [step, hr, hi, settle]

end

/-- Settles O9: the interrupt test answers FIQ, else IRQ, else nothing, and its answer is entered. -/
theorem interruptsTaken : Obligations.InterruptsTaken := by
  refine fun s hr => ⟨fun ha hreq hmask => ?_, fun ha hfiq hreq hmask => ?_, boundaryInterrupt_none⟩
  · exact ⟨_, step_of_interrupt hr (boundaryInterrupt_fiq ha hreq hmask),
      trapEntered_entered .fiq (by decide) _ s, rfl⟩
  · exact ⟨_, step_of_interrupt hr (boundaryInterrupt_irq ha hfiq hreq hmask),
      trapEntered_entered .irq (by decide) _ s, rfl⟩

/-! The host's requests (R276). -/

/-- At a boundary `Enter` is the entry of R270. -/
theorem hostRequest_enter {s : State} (hp : s.phase = .fetch) (k : ExcKind) (pc : Word) :
    hostRequest (.enter k pc) s = .next (enterException k pc s) := by
  simp [hostRequest, hp]

/-- Settles O40: the request is `enterException`, row by row. -/
theorem exceptionEntry : Obligations.ExceptionEntry := by
  intro s pc hp
  have entered (k : ExcKind) (hk : k ≠ .reset) :
      ∃ t, hostRequest (.enter k pc) s = .next t ∧
        Entered s t k.target k.offset (k.link s.cfg pc) k.setsF :=
    ⟨_, hostRequest_enter hp k pc, enterException_entered k hk pc s⟩
  exact ⟨entered .undef nofun, entered .swi nofun, entered .prefetchAbort nofun,
    entered .dataAbort nofun, entered .irq nofun, entered .fiq nofun⟩

section
variable {s : State}

theorem hostRequest_inside_step (hp : s.phase = .decodeExecute) (q : Request) :
    hostRequest q s = .refused .notAtBoundary := by
  simp [hostRequest, hp]

theorem hostRequest_stop (hp : s.phase = .fetch) : hostRequest .stop s = stopRequest s := by
  simp [hostRequest, hp]

theorem hostRequest_resume (hp : s.phase = .fetch) : hostRequest .resume s = resumeRequest s := by
  simp [hostRequest, hp]

theorem hostRequest_snapshot (hp : s.phase = .fetch) : hostRequest .snapshot s = .next s := by
  simp [hostRequest, hp]

theorem hostRequest_setRequest (hp : s.phase = .fetch) (irq fiq : Bool) :
    hostRequest (.setRequest irq fiq) s = .next { s with irqReq := irq, fiqReq := fiq } := by
  simp [hostRequest, hp]

theorem hostRequest_reset (hp : s.phase = .fetch) :
    hostRequest .reset s = .next s.coreReset := by
  simp [hostRequest, hp]

theorem resumeRequest_of_stopped (h : s.run = .stopped) :
    resumeRequest s = .next { s with run := .running } := by
  simp [resumeRequest, h]

/-- `Resume` is refused unless the core is stopped (log 14). -/
theorem resumeRequest_refused (h : s.run ≠ .stopped) :
    resumeRequest s = .refused .resumeNotStopped := by
  unfold resumeRequest
  split
  · exact absurd ‹_› h
  · rfl
  · rfl
  · rfl

theorem stopRequest_of_running (h : s.run = .running) :
    stopRequest s = .next { s with run := .stopped } := by
  simp [stopRequest, h]

/-- `Stop` changes nothing unless the core runs (log 13). -/
theorem stopRequest_of_not_running (h : s.run ≠ .running) : stopRequest s = .next s := by
  unfold stopRequest
  split
  · exact absurd ‹_› h
  · rfl
  · rfl
  · rfl

/-- No request but Reset changes the run status of a core that is faulted or refused. -/
theorem hostRequest_keeps_run {q : Request} {t : State} (hp : s.phase = .fetch) (hq : q ≠ .reset)
    (hr : s.run ≠ .running) (hs : s.run ≠ .stopped) (h : hostRequest q s = .next t) :
    t.run = s.run := by
  cases q with
  | stop =>
    rw [hostRequest_stop hp, stopRequest_of_not_running hr] at h
    cases h
    rfl
  | resume =>
    rw [hostRequest_resume hp, resumeRequest_refused hs] at h
    cases h
  | snapshot =>
    rw [hostRequest_snapshot hp] at h
    cases h
    rfl
  | enter k pc =>
    rw [hostRequest_enter hp] at h
    cases h
    rfl
  | setRequest irq fiq =>
    rw [hostRequest_setRequest hp] at h
    cases h
    rfl
  | reset => exact absurd rfl hq

end

/-- Settles O52: request by request, at a boundary and inside a step. -/
theorem hostRequests : Obligations.HostRequests := by
  refine fun s => ⟨fun hp => ?_, hostRequest_inside_step⟩
  have resume (h : s.run ≠ .stopped) : hostRequest .resume s = .refused .resumeNotStopped :=
    (hostRequest_resume hp).trans (resumeRequest_refused h)
  have stop (h : s.run ≠ .running) : hostRequest .stop s = .next s :=
    (hostRequest_stop hp).trans (stopRequest_of_not_running h)
  refine ⟨fun h => (hostRequest_stop hp).trans (stopRequest_of_running h),
    fun h => (hostRequest_resume hp).trans (resumeRequest_of_stopped h),
    fun h => resume (by simp [h]),
    fun f h => ⟨resume (by simp [h]), stop (by simp [h])⟩,
    fun r h => ⟨resume (by simp [h]), stop (by simp [h])⟩,
    hostRequest_snapshot hp, hostRequest_setRequest hp,
    fun k pc => ⟨_, hostRequest_enter hp k pc, rfl⟩, ⟨_, hostRequest_reset hp, rfl⟩,
    fun q t hq ht => ⟨fun f h => ?_, fun r h => ?_⟩⟩
  · rw [hostRequest_keeps_run hp hq (by simp [h]) (by simp [h]) ht, h]
  · rw [hostRequest_keeps_run hp hq (by simp [h]) (by simp [h]) ht, h]

/-! The return words (R274). -/

theorem ExcMode.bank_mode (m : ExcMode) : m.mode.bank = m.bank := by
  cases m <;> rfl

/-- Visible r14 of an exception mode is the link register of its bank (10_state.md R24). -/
theorem State.reg_fourteen {u : State} {m : ExcMode} (hm : u.cpsr.mode = m.mode) :
    u.reg 14 = u.regs.read (.lr m.bank) := by
  rw [State.reg_of_phys (phys_fourteen _ _), hm, ExcMode.bank_mode]

section
variable {s u : State} {k : ExcKind}

/-- A handler state whose mode still holds what the entry of `k` at `s` left there: the link value and
the saved CPSR. -/
structure HoldsEntry (k : ExcKind) (s u : State) : Prop where
  mode : u.cpsr.mode = k.target.mode
  link : u.reg 14 = k.link s.cfg s.pc
  saved : u.spsrs.read k.target = s.cpsr.toWord

theorem holdsEntry_of_read (hk : k ∈ raisedKinds) (hm : u.cpsr.mode = k.target.mode)
    (hl : u.regs.read (.lr k.target.bank) =
      (enterException k s.pc s).regs.read (.lr k.target.bank))
    (hs : u.spsrs.read k.target = (enterException k s.pc s).spsrs.read k.target) :
    HoldsEntry k s u := by
  have hentered := enterException_entered k (ne_reset_of_raised hk) s.pc s
  exact ⟨hm, (State.reg_fourteen hm).trans (hl.trans hentered.link), hs.trans hentered.saved⟩

/-- A return from such a state: the CPSR of before the entry is back, and the pc takes the result
(R274, 42_data_processing.md R152). -/
theorem HoldsEntry.returns (h : HoldsEntry k s u) {e : WritingOp} (he : e ∈ writingOps) {a : DpArgs}
    {sh : Shifted} (hc : Passes a.cond u) (ha : OperandAllowed u a.rn a.rd a.op2)
    (hrn : RnAllowed u e a.rn) (hsh : shifterOperand a.op2 u = .ok sh) (hd : a.rd = 15)
    (hs : a.s = true) :
    ∃ t, exec (e.instr a) u = .next t ∧
      t.pc = e.result (operand1 a.rn a.op2 u) sh.value u.cpsr.c ∧ t.cpsr = s.cpsr ∧
      Completes u t ∧ KeepsRegs u t ∧ KeepsSpsrs u t := by
  have hvalid : Mode.ofBits ((u.spsrs.read k.target).extractLsb' 0 5) ≠ none := by
    simp [h.saved, Psr.toWord_mode]
  obtain ⟨t, ht, hcomp, hpc, hcpsr, hregs, hspsrs, -⟩ :=
    (returnRestoresCpsr e he a u sh hc ha hrn hsh hd hs).1 k.target h.mode hvalid
  exact ⟨t, ht, hpc, Psr.toWord_injective (hcpsr.trans h.saved), hcomp, hregs, hspsrs⟩

/-- `MOVS pc, lr` resumes at the link value. -/
theorem HoldsEntry.movs_pc_lr (h : HoldsEntry k s u) :
    ∃ t, exec (.mov ⟨.al, true, 0, 15, .shiftImm 14 .lsl 0#5⟩) u = .next t ∧
      t.pc = k.link s.cfg s.pc ∧ t.cpsr = s.cpsr ∧ Completes u t ∧ KeepsRegs u t ∧
      KeepsSpsrs u t := by
  rw [← h.link]
  exact h.returns (e := ⟨.mov, fun _ b _ => b, false⟩)
    (a := ⟨.al, true, 0, 15, .shiftImm 14 .lsl 0#5⟩) (by simp [writingOps]) rfl trivial
    (fun _ _ => rfl) rfl rfl rfl

/-- `SUBS pc, lr, #4` resumes 4 before the link value. -/
theorem HoldsEntry.subs_pc_lr (h : HoldsEntry k s u) :
    ∃ t, exec (.sub ⟨.al, true, 14, 15, .imm 0#4 4#8⟩) u = .next t ∧
      t.pc = k.link s.cfg s.pc - 4#32 ∧ t.cpsr = s.cpsr ∧ Completes u t ∧ KeepsRegs u t ∧
      KeepsSpsrs u t := by
  rw [← h.link]
  exact h.returns (e := ⟨.sub, fun a b _ => a - b, true⟩)
    (a := ⟨.al, true, 14, 15, .imm 0#4 4#8⟩) (by simp [writingOps]) rfl trivial nofun rfl rfl rfl

end

theorem decodeWord_movs_pc_lr :
    decodeWord 0xE1B0F00E#32 = .ok (.mov ⟨.al, true, 0, 15, .shiftImm 14 .lsl 0#5⟩) :=
  decodeWord_of_encode rfl rfl

theorem decodeWord_subs_pc_lr_4 :
    decodeWord 0xE25EF004#32 = .ok (.sub ⟨.al, true, 14, 15, .imm 0#4 4#8⟩) :=
  decodeWord_of_encode rfl rfl

/-- Settles O41: the words decode to the two returns, and the link value is `pc + 4`. -/
theorem trapReturnResumes : Obligations.TrapReturnResumes := by
  intro s u i
  refine ⟨fun k hk hd hm hl hs => ?_, fun k hk hd hm hl hs => ?_⟩
  · have hkr : k ∈ raisedKinds := (by decide : [.undef, .swi] ⊆ raisedKinds) hk
    cases decodeWord_movs_pc_lr.symm.trans hd
    rw [← link_of_raised hkr s.cfg]
    exact (holdsEntry_of_read hkr hm hl hs).movs_pc_lr
  · have hkr : k ∈ raisedKinds := (by decide : [.prefetchAbort, .irq, .fiq] ⊆ raisedKinds) hk
    cases decodeWord_subs_pc_lr_4.symm.trans hd
    have hret := (holdsEntry_of_read hkr hm hl hs).subs_pc_lr
    rwa [link_of_raised hkr, BitVec.add_sub_cancel] at hret

end Sys2Proof.Machine
end

section
/-! A step from User mode leaves privileged state alone, or it enters an exception
(60_exceptions.md R277, R278). -/

namespace Sys2Proof.Machine

/-- `t` is in User mode, with the masks, the reserved bits, the SPSRs and the registers User mode
cannot name as in `s` (R277, 10_state.md R23, R24). -/
structure KeepsPrivileged (s t : State) : Prop where
  cfg : t.cfg = s.cfg
  mode : t.cpsr.mode = .usr
  i : t.cpsr.i = s.cpsr.i
  f : t.cpsr.f = s.cpsr.f
  reserved : t.cpsr.reserved = s.cpsr.reserved
  spsrs : t.spsrs = s.spsrs
  regs : ∀ p : PhysReg, (∀ i : Reg, phys s.cfg.fiqBanks .usr i ≠ some p) →
    t.regs.read p = s.regs.read p

theorem KeepsPrivileged.of_eq {s t : State} (hu : s.cpsr.mode = .usr) (hcfg : t.cfg = s.cfg)
    (hcpsr : t.cpsr = s.cpsr) (hspsrs : t.spsrs = s.spsrs) (hregs : t.regs = s.regs) :
    KeepsPrivileged s t :=
  ⟨hcfg, hcpsr ▸ hu, by rw [hcpsr], by rw [hcpsr], by rw [hcpsr], hspsrs, fun _ _ => by rw [hregs]⟩

theorem KeepsPrivileged.refl {s : State} (hu : s.cpsr.mode = .usr) : KeepsPrivileged s s :=
  .of_eq hu rfl rfl rfl rfl

theorem KeepsPrivileged.trans {s t u : State} (h : KeepsPrivileged s t) (g : KeepsPrivileged t u) :
    KeepsPrivileged s u :=
  ⟨g.cfg.trans h.cfg, g.mode, g.i.trans h.i, g.f.trans h.f, g.reserved.trans h.reserved,
    g.spsrs.trans h.spsrs, fun p hp => (g.regs p (h.cfg ▸ hp)).trans (h.regs p hp)⟩

/-- A register write in User mode names a register of User mode. -/
theorem KeepsPrivileged.setReg {s t : State} (h : KeepsPrivileged s t) (i : Reg) (v : Word) :
    KeepsPrivileged s (t.setReg i v) where
  cfg := by simp [h.cfg]
  mode := by simp [h.mode]
  i := by simp [h.i]
  f := by simp [h.f]
  reserved := by simp [h.reserved]
  spsrs := by simp [h.spsrs]
  regs p hp := by
    rw [State.setReg_read, h.cfg, h.mode, if_neg (hp i), h.regs p hp]

/-- A CPSR write that copies the mode, the masks and the reserved bits of `s`. -/
theorem KeepsPrivileged.withCpsr {s t : State} (h : KeepsPrivileged s t) {p : Psr}
    (hm : p.mode = .usr) (hi : p.i = s.cpsr.i) (hf : p.f = s.cpsr.f)
    (hr : p.reserved = s.cpsr.reserved) : KeepsPrivileged s { t with cpsr := p } :=
  ⟨h.cfg, hm, hi, hf, hr, h.spsrs, h.regs⟩

/-! The executors, run in User mode. -/

section
variable {s t : State} (hu : s.cpsr.mode = .usr)
include hu

/-- With S and Rd = 15 User mode traps, so the executor ends with a register write and flags (R278). -/
theorem dpBody_keepsPrivileged {op : AluOp} {sbz : Bool} {a : DpArgs}
    (h : dpBody op sbz a s = .ok t) : KeepsPrivileged s t := by
  have hs : s.spsr? = none := State.spsr?_eq_none (.inl hu)
  unfold dpBody at h
  split at h
  · cases h
  · split at h
    · cases h
    · simp only [returnFromException_without_spsr hs] at h
      split at h
      · split at h
        · cases h
        · cases h
          exact ((KeepsPrivileged.refl hu).setReg ..).withCpsr hu rfl rfl rfl
      · cases h
        exact (KeepsPrivileged.refl hu).setReg ..

theorem testBody_keepsPrivileged {op : AluOp} {a : TestArgs}
    (h : testBody op a s = .ok t) : KeepsPrivileged s t := by
  unfold testBody at h
  split at h
  · cases h
  · split at h
    · cases h
    · cases h
      exact (KeepsPrivileged.refl hu).withCpsr hu rfl rfl rfl

theorem mulBody_keepsPrivileged {acc : Bool} {op : Word → Word → Word → Word} {a : MulArgs}
    (h : mulBody acc op a s = .ok t) : KeepsPrivileged s t := by
  have hw (v : Word) := (KeepsPrivileged.refl hu).setReg a.rd v
  unfold mulBody at h
  split at h
  · cases h
  · cases h
    split
    · exact (hw _).withCpsr hu rfl rfl rfl
    · exact hw _

theorem mullBody_keepsPrivileged {op : Word → Word → BitVec 64 → BitVec 64} {a : MullArgs}
    (h : mullBody op a s = .ok t) : KeepsPrivileged s t := by
  have hw (lo hi : Word) := ((KeepsPrivileged.refl hu).setReg a.rdLo lo).setReg a.rdHi hi
  unfold mullBody at h
  split at h
  · cases h
  · cases h
    split
    · exact (hw _ _).withCpsr hu rfl rfl rfl
    · exact hw _ _

/-- Without an SPSR, MRS is the register write of the CPSR word (R278). -/
theorem mrsBody_keepsPrivileged {a : MrsArgs} (h : mrsBody a s = .ok t) :
    KeepsPrivileged s t := by
  unfold mrsBody at h
  rw [State.spsr?_eq_none (.inl hu)] at h
  split at h
  · cases h
  · split at h
    · cases h
    · cases h
      exact (KeepsPrivileged.refl hu).setReg ..

/-- An MSR that User mode may make writes flags alone (44_psr_transfer.md R213, R214). -/
theorem msrWrite_keepsPrivileged {f : Bool} {v : Word} (h : msrWrite false f false v s = .ok t) :
    KeepsPrivileged s t := by
  simp only [msrWrite, Bool.false_eq_true, if_false, Bool.and_false, Bool.false_and] at h
  split at h
  · cases h
  · rename_i p hp
    cases h
    obtain ⟨-, -, -, -, hr, hi, hf, -, -⟩ := Psr.ofWord?_some hp
    have kept (k : Nat) (hk : k < 28) :
        (msrMerge f false s.cpsr.toWord v).getLsbD k = s.cpsr.toWord.getLsbD k := by
      simp [msrMerge_merged f false s.cpsr.toWord v k (by omega), Nat.not_le.mpr hk]
    refine (KeepsPrivileged.refl hu).withCpsr ((ofWord?_msrMerge_mode hp).trans hu) ?_ ?_ ?_
    · rw [hi, kept 7 (by decide), Psr.toWord_i]
    · rw [hf, kept 6 (by decide), Psr.toWord_f]
    · rw [hr, msrMerge_reserved, Psr.toWord_reserved]

theorem msrRegBody_keepsPrivileged {a : MsrRegArgs} (h : msrRegBody a s = .ok t) :
    KeepsPrivileged s t := by
  unfold msrRegBody at h
  split at h
  · cases h
  · rename_i hn
    obtain ⟨hr, hc⟩ := msrChecks_none_of_user hu hn
    rw [hr, hc] at h
    exact msrWrite_keepsPrivileged hu h

theorem msrImmBody_keepsPrivileged {a : MsrImmArgs} (h : msrImmBody a s = .ok t) :
    KeepsPrivileged s t := by
  unfold msrImmBody at h
  split at h
  · cases h
  · rename_i hn
    rw [(msrChecks_none_of_user hu hn).1] at h
    exact msrWrite_keepsPrivileged hu h

/-- No executor that completes in User mode writes privileged state (R277, R278). -/
theorem Executor.keepsPrivileged {body : State → Except NonOk State} (hb : Executor body)
    (h : body s = .ok t) : KeepsPrivileged s t := by
  cases hb with
  | dp op sbz a => exact dpBody_keepsPrivileged hu h
  | test op a => exact testBody_keepsPrivileged hu h
  | mul acc op a => exact mulBody_keepsPrivileged hu h
  | mull op a => exact mullBody_keepsPrivileged hu h
  | mrs a => exact mrsBody_keepsPrivileged hu h
  | msrReg a => exact msrRegBody_keepsPrivileged hu h
  | msrImm a => exact msrImmBody_keepsPrivileged hu h
  | branch a =>
    cases h
    exact (KeepsPrivileged.refl hu).setReg ..
  | branchLink a =>
    cases h
    exact ((KeepsPrivileged.refl hu).setReg ..).setReg ..
  | branchExchange a =>
    cases h
    exact ((KeepsPrivileged.refl hu).setReg ..).withCpsr hu rfl rfl rfl
  | raise o => cases h

/-! The step from User mode. -/

theorem settle_from_user {o : NonOk} (h : settle o s = .next t) :
    KeepsPrivileged s t ∨ ∃ k ∈ raisedKinds, ∃ o, t = trapEntered k o s := by
  rcases settle_next_raised h with ⟨k, hk, ht⟩ | rfl
  · exact .inr ⟨k, hk, o, ht⟩
  · exact .inl (.of_eq hu rfl rfl rfl rfl)

theorem exec_from_user {i : Instr} (h : exec i s = .next t) :
    KeepsPrivileged s t ∨ ∃ k ∈ raisedKinds, ∃ o, t = trapEntered k o s := by
  obtain ⟨body, hb, he⟩ := exec_eq_execute i
  rw [he] at h
  rcases execute_next h with ⟨-, h⟩ | ⟨-, rfl⟩ | ⟨-, ⟨o, -, h⟩ | ⟨u, hok, rfl⟩⟩
  · exact settle_from_user hu h
  · exact .inl (.of_eq hu rfl rfl rfl rfl)
  · exact settle_from_user hu h
  · have hstart : KeepsPrivileged s { s with pcWritten := false } := .of_eq hu rfl rfl rfl rfl
    have hbody := hb.keepsPrivileged hstart.mode hok
    have hcommit : KeepsPrivileged u u.commit := .of_eq hbody.mode rfl rfl rfl rfl
    exact .inl (hstart.trans (hbody.trans hcommit))

/-- An exception is entered from the state that holds the word fetched last: `w` is the one this step
fetched, or the one before where it fetched none. -/
theorem step_from_user (h : step s = .next t) :
    KeepsPrivileged s t ∨
      ∃ k ∈ raisedKinds, ∃ (o : NonOk) (w : Word), t = trapEntered k o { s with ir := w } := by
  have settled {o : NonOk} (h : settle o s = .next t) :
      KeepsPrivileged s t ∨
        ∃ k ∈ raisedKinds, ∃ (o : NonOk) (w : Word), t = trapEntered k o { s with ir := w } :=
    (settle_from_user hu h).imp_right fun ⟨k, hk, o, ht⟩ => ⟨k, hk, o, s.ir, ht⟩
  rcases step_next h with ⟨-, rfl⟩ | ⟨-, k, -, rfl⟩ | ⟨-, -, hp, rfl⟩ | ⟨-, w, i, -, -, h⟩
  · exact .inl (.refl hu)
  · exact settled (o := .interruptTaken k) rfl
  · exact settled (o := .fetchFault s.pc) (by simp [settle, hp])
  · have hfetch : KeepsPrivileged s (s.fetched w) := .of_eq hu rfl rfl rfl rfl
    rcases exec_from_user hfetch.mode h with hkeep | ⟨k, hk, o, ht⟩
    · exact .inl (hfetch.trans hkeep)
    · exact .inr ⟨k, hk, o, w, ht⟩

end

/-- Settles O49: each way a step ends keeps privileged state or is an entry. -/
theorem userModeLeftByExceptionOnly : Obligations.UserModeLeftByExceptionOnly := by
  intro s t hu h
  rcases step_from_user hu h with hkeep | ⟨k, hk, o, w, rfl⟩
  · obtain ⟨-, hm, hi, hf, hr, hs, hregs⟩ := hkeep
    exact .inl ⟨hm, hi, hf, hr, fun m => by rw [hs], hregs⟩
  · exact .inr ⟨k.target, k.offset, w, target_offset_of_raised hk,
      trapEntered_entered_of_raised hk o { s with ir := w }⟩

end Sys2Proof.Machine
end

section
/-! The reset request (70_reset_and_hazards.md R290, 10_state.md R40): the values it leaves. -/

namespace Sys2Proof.Machine

/-- The Reset vector is VECTOR_BASE itself: its offset is 0 (R290). -/
theorem State.coreReset_pc_eq_vectorBase (s : State) : s.coreReset.pc = s.cfg.vectorBase :=
  s.coreReset_pc.trans (BitVec.add_zero _)

/-- Settles O45: at a boundary the request answers `coreReset`; its `@[simp]` laws give the other fields. -/
theorem resetValues : Obligations.ResetValues := by
  intro s hp
  refine ⟨s.coreReset, hostRequest_reset hp, s.coreReset_pc_eq_vectorBase, ?_⟩
  simp

end Sys2Proof.Machine
end
